-- ==== Sys2Proof/Word.lean ====
section
/-! DEFINITION. The byte, and the fixed-length table by which the model holds "one per lane", "one per leg",
"one per port". -/

namespace Sys2Proof

/-- One byte of the record space or of a bus transaction. -/
abbrev Byte := BitVec 8

/-- A table of exactly `n` entries, numbered from 0. -/
structure Tab (n : Nat) (α : Type) where
  list : List α
  length_eq : list.length = n
  deriving DecidableEq, Repr

/-- Entry `i` of a table. -/
def Tab.get {n : Nat} {α : Type} (t : Tab n α) (i : Fin n) : α :=
  t.list[i.val]'(by rw [t.length_eq]; exact i.isLt)

/-- The table with entry `i` replaced. -/
def Tab.set {n : Nat} {α : Type} (t : Tab n α) (i : Fin n) (x : α) : Tab n α :=
  ⟨t.list.set i.val x, by rw [List.length_set, t.length_eq]⟩

/-- The table whose entry `i` is `f i`. -/
def Tab.ofFn {n : Nat} {α : Type} (f : Fin n → α) : Tab n α :=
  ⟨List.ofFn f, List.length_ofFn⟩

/-- The table whose entries are all `x`. -/
def Tab.fill (n : Nat) {α : Type} (x : α) : Tab n α :=
  ⟨List.replicate n x, List.length_replicate⟩

/-- The table with `f` applied to entry `i`. -/
def Tab.modify {n : Nat} {α : Type} (t : Tab n α) (i : Fin n) (f : α → α) : Tab n α :=
  t.set i (f (t.get i))

/-- The table with every entry rewritten from its number and its value. -/
def Tab.mapIdx {n : Nat} {α β : Type} (t : Tab n α) (f : Fin n → α → β) : Tab n β :=
  Tab.ofFn fun i => f i (t.get i)

/-- The numbers of a table's entries, in order. -/
def Tab.indices (n : Nat) : List (Fin n) := List.ofFn id

end Sys2Proof
end

