-- ==== Sys2Proof/Syntax.lean ====
section
/-! DEFINITION. The commands: one constructor per row of spec/opcode_table.json, with the operands the rows'
rules speak of. The table itself gives no operands. -/

namespace Sys2Proof

/-- A cable lane, 0 to 7 (00_scope, Numbering). -/
abbrev LaneId := Fin 8

/-- A switch lane, 0 to 7; also the number of an S-side receive and transmit pair (R9). -/
abbrev SwitchLane := Fin 8

/-- A leg, 0 to 3. -/
abbrev LegId := Fin 4

/-- A management port, M0 to M4. -/
abbrev PortId := Fin 5

/-- The two sides of a cable lane. -/
inductive Side where
  | S
  | C
  deriving DecidableEq, Repr

/-- A receiver, named by the pair it sits on: C-side pairs are numbered by cable lane, S-side pairs by switch lane
(R9: "The events of a pair therefore go to the S-segment that stands on it"). -/
inductive Receiver where
  | cPair (i : LaneId)
  | sPair (p : SwitchLane)
  deriving DecidableEq, Repr

/-- A polarity (R1, R5). -/
inductive Polarity where
  | normal
  | inverted
  deriving DecidableEq, Repr

/-- The receive and transmit polarity of one pair. -/
structure PolarityPair where
  rx : Polarity
  tx : Polarity
  deriving DecidableEq, Repr

/-- The order of a profile leg (R5, R8). -/
inductive LaneOrder where
  | linear
  | interleaved
  deriving DecidableEq, Repr

/-- One leg of a profile (R5). -/
structure LegProfile where
  enabled : Bool
  base : Fin 16
  start : Fin 8
  order : LaneOrder
  deriving DecidableEq, Repr

/-- A profile: four legs and the S-side polarities of the eight switch lanes (R5). -/
structure Profile where
  legs : Tab 4 LegProfile
  lanes : Tab 8 PolarityPair
  deriving DecidableEq, Repr

/-- One leg of a wiring record as an image holds it, before R2 has tested it. -/
structure RawLeg where
  count : Nat
  lanes : List Nat
  deriving DecidableEq, Repr

/-- A wiring record as an image holds it, before R2 has tested it (R1). -/
structure RawWiring where
  legCount : Nat
  legs : List RawLeg
  cPolarity : Tab 8 PolarityPair
  deriving DecidableEq, Repr

/-- A policy table: one bit per entry, 1 is ALLOW (R176). Bit `n` of `read` and `write` is the `n`-th field group in
the order of 12.3, bit `n` of `actions` the action of code `n + 1`. -/
structure PolicyTable where
  read : BitVec 20
  write : BitVec 20
  actions : BitVec 14
  far : Bool
  deriving DecidableEq, Repr

/-- The default thresholds of one leg as the image stores them (R186, R27). -/
structure ImageLeg where
  threshold : Byte
  lowMargin : Bool
  autoRetrain : Bool
  sTx : Fin 8
  cTx : Fin 8
  sPartner : Fin 8
  cPartner : Fin 8
  deriving DecidableEq, Repr

/-- A factory image: its contents in the order of R186, and the stored check. The bytes that the check covers are those
of the contents (`imageBytes`; log 6). -/
structure FactoryImage where
  serial : Tab 16 Byte
  lengthCode : Byte
  wiring : RawWiring
  profile : Profile
  policy : PolicyTable
  hysteresis : Byte
  pWatch : Byte
  dDrop : Byte
  kAlarm : Byte
  legs : Tab 4 ImageLeg
  check : BitVec 16
  deriving DecidableEq, Repr

/-- The direction bit of a bus address byte (R162). -/
inductive BusDir where
  | write
  | read
  deriving DecidableEq, Repr

/-- A side as a view names it (R171). -/
inductive ViewSide where
  | near
  | far
  deriving DecidableEq, Repr

/-- A step direction (section 3.3). -/
inductive Direction where
  | minus
  | plus
  deriving DecidableEq, Repr

/-- The request fields of an action besides its code (R143): side, lane mask, tap code, direction, preset code. -/
structure ActionArgs where
  side : ViewSide
  mask : BitVec 8
  tap : Fin 4
  direction : Direction
  preset : Fin 8
  deriving DecidableEq, Repr

/-- The commands. A mask `later` names the lanes that take their operation of an action as an event of their own
(R148) rather than in the command itself. Log 10. -/
inductive Instr where
  /-- POWER_ON, with the levels (asserted or not) of the reset lines. -/
  | powerOn (switchLine : Bool) (legLines : Tab 4 Bool)
  /-- SWITCH_RESET_ASSERTED -/
  | switchResetAsserted
  /-- SWITCH_RESET_RELEASED -/
  | switchResetReleased
  /-- IMAGE_LOAD_COMPLETE, with what the store has been found to hold if that is no longer what the state says: no
  command of the table writes or damages the store, and a later load may find another image (section 11.4). Log 38. -/
  | imageLoadComplete (found : Option FactoryImage)
  /-- LEG_RESET_ASSERTED -/
  | legResetAsserted (k : LegId)
  /-- LEG_RESET_RELEASED -/
  | legResetReleased (k : LegId)
  /-- SIGNAL_LOST -/
  | signalLost (r : Receiver)
  /-- LOCK_LOST -/
  | lockLost (r : Receiver)
  /-- LOCK_REGAINED -/
  | lockRegained (r : Receiver)
  /-- FRAME_RECEIVED, with the 47 symbols on the line, first symbol in the highest two bits (R192). -/
  | frameReceived (r : Receiver) (bits : BitVec 94)
  /-- T_ACQUIRE_EXPIRY -/
  | tAcquireExpiry (i : LaneId) (d : Side)
  /-- T_RELOCK_EXPIRY -/
  | tRelockExpiry (i : LaneId) (d : Side)
  /-- T_TUNE_EXPIRY -/
  | tTuneExpiry (i : LaneId) (d : Side)
  /-- T_REPLY_EXPIRY -/
  | tReplyExpiry (i : LaneId) (d : Side)
  /-- T_SETTLE_EXPIRY -/
  | tSettleExpiry (i : LaneId) (d : Side)
  /-- T_QUIET_EXPIRY -/
  | tQuietExpiry (i : LaneId)
  /-- WATCH_PERIOD_EXPIRY -/
  | watchPeriodExpiry
  /-- SCAN_WINDOW_END, with the window's count of disagreements (R105). -/
  | scanWindowEnd (i : LaneId) (d : Side) (count : Nat)
  /-- WATCH_RETRAIN_REQUEST -/
  | watchRetrainRequest (i : LaneId)
  /-- APPLY_LANE_CASE -/
  | applyLaneCase (i : LaneId)
  /-- ACTION_LANE_OPERATION: the lane behind mask bit `b` of port `p`'s action. -/
  | actionLaneOperation (p : PortId) (b : Fin 8)
  /-- BUS_START_ADDRESS -/
  | busStartAddress (p : PortId) (addr : BitVec 7) (dir : BusDir)
  /-- POINTER_BYTE -/
  | pointerByte (p : PortId) (b : Byte)
  /-- DATA_BYTE_WRITTEN -/
  | dataByteWritten (p : PortId) (b : Byte)
  /-- READ_BYTE_SENT -/
  | readByteSent (p : PortId)
  /-- HOST_NACK -/
  | hostNack (p : PortId)
  /-- READ_PART_END -/
  | readPartEnd (p : PortId)
  /-- REGISTER_WRITE: the end of the write part under way at port `p`. -/
  | registerWrite (p : PortId) (later : BitVec 8)
  /-- COUNTS_ZERO: a write stop of the COUNTS group, each byte written or not. -/
  | countsZero (p : PortId) (refused busy unmapped : Option Byte)
  /-- BITMAP_CLEAR: a write stop of the BITMAP group. -/
  | bitmapClear (p : PortId) (flags : BitVec 20)
  /-- ALERT_MASK_WRITE: a write stop of the MASK group. -/
  | alertMaskWrite (p : PortId) (mask : BitVec 20)
  /-- ACTION_RESERVED: a write stop of the REQUEST group with code NONE or a reserved code. -/
  | actionReserved (p : PortId) (code : Byte) (args : ActionArgs)
  /-- RETRAIN: this and the following are write stops of the REQUEST group with that action's code. -/
  | retrain (p : PortId) (args : ActionArgs) (later : BitVec 8)
  /-- HOLD -/
  | hold (p : PortId) (args : ActionArgs) (later : BitVec 8)
  /-- RELEASE -/
  | release (p : PortId) (args : ActionArgs) (later : BitVec 8)
  /-- MEASURE -/
  | measure (p : PortId) (args : ActionArgs) (later : BitVec 8)
  /-- SAVE -/
  | save (p : PortId) (args : ActionArgs) (later : BitVec 8)
  /-- RESTORE -/
  | restore (p : PortId) (args : ActionArgs) (later : BitVec 8)
  /-- DISCARD -/
  | discard (p : PortId) (args : ActionArgs) (later : BitVec 8)
  /-- STEP -/
  | step (p : PortId) (args : ActionArgs) (later : BitVec 8)
  /-- PRESET -/
  | preset (p : PortId) (args : ActionArgs) (later : BitVec 8)
  /-- CLEAR_COUNTERS -/
  | clearCounters (p : PortId) (args : ActionArgs) (later : BitVec 8)
  /-- FREEZE -/
  | freeze (p : PortId) (args : ActionArgs)
  /-- THAW -/
  | thaw (p : PortId) (args : ActionArgs)
  /-- APPLY_PROFILE -/
  | applyProfile (p : PortId) (args : ActionArgs)
  /-- SOFT_RESET -/
  | softReset (p : PortId) (args : ActionArgs)
  /-- SIGNAL_PRESENT -/
  | signalPresent (r : Receiver)
  deriving DecidableEq, Repr

end Sys2Proof
end

