-- ==== Sys2Proof/WellFormed.lean ====
section
/-! DEFINITION. Which commands are well formed: the checks that the operand types do not make by themselves. Every
meaning is total, on ill-formed commands too; the checks say which commands the part's surroundings can send. -/

namespace Sys2Proof

/-- The number of symbols in a scan window (R105). A window's disagreement count cannot exceed it. -/
def windowSymbols : Nat := 65536

/-- The codes that name no action: NONE and 15 to 255 (12.7). -/
def reservedCode (code : Byte) : Bool := code.toNat == 0 || 15 ≤ code.toNat

/-- The checks of a command. -/
def Instr.wellFormed : Instr → Bool
  | .scanWindowEnd _ _ count => decide (count ≤ windowSymbols)
  | .actionReserved _ code _ => reservedCode code
  | _ => true

end Sys2Proof
end

