-- ==== Sys2Proof/Config.lean ====
section
/-! DEFINITION. What the manual fixes in the part but does not state: opaque constants, so that no proof can lean
on a value. -/

namespace Sys2Proof.Config

/-- The vendor code "fixed in the part's logic" (R188). Its value is not stated. Log 2. DESIGN CHOICE, safe. -/
opaque vendorCode : BitVec 16

/-- The part code "fixed in the part's logic" (R188). Its value is not stated. Log 2. DESIGN CHOICE, safe. -/
opaque partCode : BitVec 16

/-- The bytes by which a factory image stores a wiring record (R186). Not stated. Log 6. DESIGN CHOICE. -/
opaque wiringBytes : RawWiring → List Byte

/-- The bytes by which a factory image stores a default profile (R186). Not stated. Log 6. DESIGN CHOICE. -/
opaque profileBytes : Profile → List Byte

/-- The bytes by which a factory image stores a default policy table (R186). Not stated. Log 6. DESIGN CHOICE. -/
opaque policyBytes : PolicyTable → List Byte

/-- The bytes by which a factory image stores the default thresholds: H, P_watch, D_drop, K_alarm and each leg's values
(R186). Not stated. Log 6. DESIGN CHOICE. -/
opaque thresholdBytes : Byte → Byte → Byte → Byte → Tab 4 ImageLeg → List Byte

end Sys2Proof.Config
end

