-- ==== Sys2Proof/Machine/State.lean ====
section
/-! DEFINITION. The state of the part, as plain data, and its value right after reset. INVENTORY.md lists every field
with the rule that names it. A timer is `none` while stopped and `some ms` while it runs, `ms` being the length it was
started at: when it expires is a command (log 1). -/

namespace Sys2Proof.Machine

/-- A timer: stopped, or running with the length in ms that it was started at. -/
abbrev Timer := Option Nat

/-- A figure of merit, or NO READING (`none`), which is a value of its own and not a number (R111). -/
abbrev Fom := Option Nat

/-! ## Lane, segment and leg (chapter 2) -/

/-- The seven lane states (R28). -/
inductive LaneState where
  | off | down | train | ready | carry | wait | fault
  deriving DecidableEq, Repr

/-- The segment states that outlast an event. FAIL "never persists" (R37). Log 24. -/
inductive SegState where
  | idle | detect | exchange | done
  deriving DecidableEq, Repr

/-- The failure reasons (R31). -/
inductive FailReason where
  | none | acquireTimeout | lockLost | replyTimeout | tuneTimeout | noReading | lowMargin
  | partnerRefused | partnerStack
  deriving DecidableEq, Repr

/-- The leg states (R54). -/
inductive LegState where
  | disabled | forming | live
  deriving DecidableEq, Repr

/-- A hold set: a subset of SWITCH, LEG, LINE (R51). -/
structure HoldSet where
  switch : Bool
  leg : Bool
  line : Bool
  deriving DecidableEq, Repr

/-- The case of an apply that a lane has still to take (R17, R19). `moves` says that the apply changed the lane's switch
lane, so that the S-segment stands on no pairs until the case is taken (R9). -/
structure ApplyCase where
  changed : Bool
  moves : Bool
  deriving DecidableEq, Repr

/-! ## Transmit settings (chapter 3) -/

/-- A setting by its three held taps; the main tap is derived from them (R61, `Setting.main`). -/
structure Setting where
  pre : Int
  post1 : Int
  post2 : Int
  deriving DecidableEq, Repr

/-- A Transmit Setting Unit: the current setting and the setting stack, newest first (R60, R64). -/
structure TxUnit where
  current : Setting
  stack : List Setting
  deriving DecidableEq, Repr

/-- The outer taps (section 3.3). -/
inductive Tap where
  | pre | post1 | post2
  deriving DecidableEq, Repr

/-- The outcomes a reply carries (R80). -/
inductive ReplyOutcome where
  | none | applied | atLimit | stackFull | stackEmpty | badRequest
  deriving DecidableEq, Repr

/-- A request whose codes name something (R71, R80). -/
inductive Request where
  | step (t : Tap) (d : Direction)
  | trial (t : Tap) (d : Direction)
  | keep
  | back
  | preset (p : Fin 4)
  deriving DecidableEq, Repr

/-! ## Exchange, search, scanner and watch, per side (chapters 4 to 6) -/

/-- The echo field of a frame, as carried (R100, R192). -/
structure Echo where
  pre : BitVec 4
  main : BitVec 6
  post1 : BitVec 5
  post2 : BitVec 4
  depth : BitVec 4
  deriving DecidableEq, Repr

/-- A Segment Controller, with the exchange flags and the echo it holds (R31, R94, R96, R97, R100, R35). -/
structure SegControl where
  state : SegState
  own : Fin 16
  partner : Option (Fin 16)
  reason : FailReason
  polaritySuspect : Bool
  marginal : Bool
  tAcquire : Timer
  tRelock : Timer
  tTune : Timer
  synchronised : Bool
  ownReady : Bool
  partnerReady : Bool
  echo : Echo
  finalFom : Fom
  deriving DecidableEq, Repr

/-- A Tuning Responder (R87). The stored reply's tag is always the last tag. -/
structure Responder where
  lastTag : Option (Fin 4)
  outcome : ReplyOutcome
  deriving DecidableEq, Repr

/-- A Tuning Requester (R91). `handed` is a request the search has handed over that waits for the synchronised flag
(R94). -/
structure Requester where
  outstanding : Option (Request × Fin 4)
  handed : Option Request
  nextTag : Fin 4
  lastReply : Option (Fin 4 × ReplyOutcome)
  tReply : Timer
  deriving DecidableEq, Repr

/-- The search phases (R114). -/
inductive Phase where
  | none | opening | reference | trying | measuring | keeping | backing | accepted | halted
  deriving DecidableEq, Repr

/-- The state of a tuning search (R114). -/
structure Search where
  phase : Phase
  pass : Nat
  tap : Tap
  dir : Direction
  reference : Fom
  trialReading : Fom
  unordered : Nat
  tapMoved : Bool
  passMoved : Bool
  tSettle : Timer
  deriving DecidableEq, Repr

/-- The origin of a scan (R103). -/
inductive Origin where
  | search | watch | action
  deriving DecidableEq, Repr

/-- A scan in flight: its origin, the offset of the running window, and the values of the edges already ended, in the
order of R106 (so the edge under measurement is number `edges.length`). -/
structure Scan where
  origin : Origin
  offset : Nat
  edges : List Nat
  deriving DecidableEq, Repr

/-- The last reading record: origin (`none` is NONE), the six edge values and the figure of merit (R103, R107). The
heights are sums of the edges (R106). -/
structure Reading where
  origin : Option Origin
  edges : List Nat
  fom : Fom
  deriving DecidableEq, Repr

/-- A Margin Scanner (R103). -/
structure Scanner where
  inFlight : Option Scan
  waiting : Bool
  last : Reading
  count : Nat
  deriving DecidableEq, Repr

/-- The Margin Watch's record of one receiver (R130). -/
structure WatchRecord where
  baseline : Fom
  alarm : Bool
  low : Nat
  deriving DecidableEq, Repr

/-- One side of a cable lane: its Segment Controller, Transmit Setting Unit, Responder, Requester, search, Margin
Scanner, watch record and the two lane counters split by side (R57). -/
structure Half where
  seg : SegControl
  tx : TxUnit
  resp : Responder
  req : Requester
  search : Search
  scan : Scanner
  watch : WatchRecord
  frameErrors : Nat
  watchAlarms : Nat
  deriving DecidableEq, Repr

/-- One cable lane: its Lane Engine (R28), the pair its S-segment stands on (R9), the apply cases it has still to take
(R20), a watch retrain request not yet taken (R49, R139), and its two sides. -/
structure Lane where
  state : LaneState
  hold : HoldSet
  fc : Nat
  trainings : Nat
  failures : Nat
  drops : Nat
  retrains : Nat
  tQuiet : Timer
  sPair : Option SwitchLane
  cases : List ApplyCase
  retrainRequested : Bool
  s : Half
  c : Half
  deriving DecidableEq, Repr

/-- What the channel of one receiver pair gives: signal present, CDR locked (R33, R36). -/
structure RxLine where
  signal : Bool
  lock : Bool
  deriving DecidableEq, Repr

/-! ## Route map (chapter 1) -/

/-- The wiring record in force (R1): the leg count, the lane list of each leg (empty for an absent leg) and the C-side
polarities. -/
structure Wiring where
  legCount : Nat
  legs : Tab 4 (List LaneId)
  cPolarity : Tab 8 PolarityPair
  deriving DecidableEq, Repr

/-- A route table entry (R10). -/
structure RouteEntry where
  leg : Option LegId
  index : Fin 8
  switchLane : Option SwitchLane
  cPolarity : PolarityPair
  sPolarity : PolarityPair
  deriving DecidableEq, Repr

/-- The apply outcome of the pending-profile record (R13, R14). -/
inductive ApplyOutcome where
  | none | done | absentLeg | misaligned | overrun | badStart | overlap | imageFault
  deriving DecidableEq, Repr

/-- The configuration fields of a leg record (R24 to R27). Start presets are P0 to P3. -/
structure LegConfig where
  threshold : Nat
  lowMargin : Bool
  autoRetrain : Bool
  sTx : Fin 4
  cTx : Fin 4
  sPartner : Fin 4
  cPartner : Fin 4
  deriving DecidableEq, Repr

/-- A busy mask (R178). -/
structure BusyMask where
  leg : Bool
  lane : Bool
  tune : Bool
  action : Bool
  deriving DecidableEq, Repr

/-! ## Ports (chapters 7 to 10) -/

/-- The transaction phase of a port (R162). -/
inductive PortPhase where
  | idle
  | pointerHigh
  | pointerLow (high : Byte)
  | writing
  | reading
  | readEnded
  deriving DecidableEq, Repr

/-- What a port drives on its data line: nothing, an acknowledge, or a data byte (R161, R162). -/
inductive DataLine where
  | released
  | ack
  | data (b : Byte)
  deriving DecidableEq, Repr

/-- A read snapshot: the bytes of the captured block as the view shows them, and for each whether its group was refused
to this port at the capture (R164, R177, R180). -/
structure Snapshot where
  bytes : List Byte
  refused : List Bool
  deriving DecidableEq, Repr

/-- A holding buffer: the block of the write part's first data byte, and the marked entries as (offset, byte) with
offsets strictly rising (R166). -/
structure HoldingBuffer where
  block : Option Nat
  entries : List (Nat × Byte)
  deriving DecidableEq, Repr

/-- The last outcome of a port status (R180). -/
inductive LastOutcome where
  | ok | partly | refused | busy | unmapped
  deriving DecidableEq, Repr

/-- A port status (R180). The discarded address is block × 64 + offset, or NONE. -/
structure PortStatus where
  last : LastOutcome
  refused : Nat
  busy : Nat
  unmapped : Nat
  discarded : Option Nat
  deriving DecidableEq, Repr

/-- The overall outcome of an action (R143, R156). `reason r` is the value of R156 and R157 for an apply outcome. -/
inductive Overall where
  | none | done | partly | refused | busy
  | reason (r : ApplyOutcome)
  deriving DecidableEq, Repr

/-- A per-lane outcome (R143). -/
inductive LaneOutcome where
  | none | done | notMapped | busy | atLimit | stackFull | stackEmpty | refused
  deriving DecidableEq, Repr

/-- An action block (R143). -/
structure ActionBlock where
  code : Byte
  args : ActionArgs
  overall : Overall
  perLane : Tab 8 LaneOutcome
  deriving DecidableEq, Repr

/-- A lane operation that an action has handed out and the lane has not taken: the mask bit, and the cable lane it
resolved to when the action was taken (R146, R148). -/
structure HandedOp where
  bit : Fin 8
  lane : LaneId
  deriving DecidableEq, Repr

/-- One management port with its Action Unit's block and its change block. -/
structure Port where
  phase : PortPhase
  pointer : BitVec 16
  snapshot : Option Snapshot
  sentRefused : Bool
  buffer : HoldingBuffer
  line : DataLine
  status : PortStatus
  action : ActionBlock
  handed : List HandedOp
  bitmap : BitVec 20
  mask : BitVec 20
  deriving DecidableEq, Repr

/-! ## The part -/

/-- The part states (R187). -/
inductive PartState where
  | loading | running | imageFault
  deriving DecidableEq, Repr

/-- The fault causes (R186). -/
inductive FaultCause where
  | none | check | wiring
  deriving DecidableEq, Repr

/-- The whole state of the part, with the queue of commands that wait. -/
structure State where
  /-- The commands waiting, first in first out. -/
  pending : List Instr
  part : PartState
  loadRunning : Bool
  faultCause : FaultCause
  /-- The factory store (R186): it outlasts power and every reset. -/
  store : FactoryImage
  serial : Tab 16 Byte
  lengthCode : Byte
  switchLine : Bool
  legLines : Tab 4 Bool
  wiring : Wiring
  current : Profile
  pendingProfile : Profile
  applyOutcome : ApplyOutcome
  failingLeg : Fin 4
  route : Tab 8 RouteEntry
  inverse : Tab 8 (Option LaneId)
  hysteresis : Nat
  pWatch : Nat
  dDrop : Nat
  kAlarm : Nat
  freeze : Bool
  watchTimer : Timer
  policy : PolicyTable
  legState : Tab 4 LegState
  legs : Tab 4 LegConfig
  busy : Tab 4 BusyMask
  lanes : Tab 8 Lane
  cRx : Tab 8 RxLine
  sRx : Tab 8 RxLine
  ports : Tab 5 Port
  deriving DecidableEq, Repr

/-- The part has no fault that stops it: what the manual calls a fault is a state it goes on in (IMAGE_FAULT, FAULT). No
constructor. -/
inductive Fault where
  deriving DecidableEq, Repr

/-- Refusals. -/
inductive Refusal where
  /-- Raised by exec's arm of a row without a meaning; no arm uses it. Safe. -/
  | notModelled (mnemonic : String)
  deriving DecidableEq, Repr

/-! ## Reset values -/

/-- Both polarities NORMAL. -/
def normalPair : PolarityPair := ⟨.normal, .normal⟩

/-- A profile leg that is disabled, with base and start 0 and order LINEAR (R6). -/
def disabledLeg : LegProfile := ⟨false, 0, 0, .linear⟩

/-- The profile of IMAGE_FAULT (R6), which the part also holds until a load completes. -/
def disabledProfile : Profile := ⟨Tab.fill 4 disabledLeg, Tab.fill 8 normalPair⟩

/-- The wiring of IMAGE_FAULT: no legs (R1). -/
def noWiring : Wiring := ⟨0, Tab.fill 4 [], Tab.fill 8 normalPair⟩

/-- The route table entry of an unwired lane (R10, R12). -/
def noRoute : RouteEntry := ⟨none, 0, none, normalPair, normalPair⟩

/-- The built-in leg configuration (R27). -/
def builtInLeg : LegConfig := ⟨60, false, true, 1, 2, 1, 2⟩

/-- The policy table of IMAGE_FAULT: every position REFUSE (R176). -/
def refuseAll : PolicyTable := ⟨0, 0, 0, false⟩

/-- A Segment Controller at power-on (R31, R102, R126). -/
def SegControl.reset : SegControl :=
  { state := .idle, own := 0, partner := none, reason := .none, polaritySuspect := false, marginal := false,
    tAcquire := none, tRelock := none, tTune := none, synchronised := false, ownReady := false,
    partnerReady := false, echo := ⟨0, 0, 0, 0, 0⟩, finalFom := none }

/-- A Requester at power-on (R91). -/
def Requester.reset : Requester :=
  { outstanding := none, handed := none, nextTag := 0, lastReply := none, tReply := none }

/-- A search at power-on (R129). -/
def Search.reset : Search :=
  { phase := .none, pass := 0, tap := .post1, dir := .minus, reference := none, trialReading := none,
    unordered := 0, tapMoved := false, passMoved := false, tSettle := none }

/-- An empty last reading record (R103). -/
def Reading.empty : Reading := ⟨none, [0, 0, 0, 0, 0, 0], none⟩

/-- A scanner at power-on (R103). -/
def Scanner.reset : Scanner := ⟨none, false, Reading.empty, 0⟩

/-- A watch record at power-on (R130). -/
def WatchRecord.reset : WatchRecord := ⟨none, false, 0⟩

/-- A side of a lane at power-on; the transmitter stands at P0, whose outer taps are 0, with an empty stack (R76). -/
def Half.reset : Half :=
  { seg := .reset, tx := ⟨⟨0, 0, 0⟩, []⟩, resp := ⟨none, .none⟩, req := .reset, search := .reset,
    scan := .reset, watch := .reset, frameErrors := 0, watchAlarms := 0 }

/-- A lane at power-on (R28). -/
def Lane.reset : Lane :=
  { state := .off, hold := ⟨false, false, false⟩, fc := 0, trainings := 0, failures := 0, drops := 0, retrains := 0,
    tQuiet := none, sPair := none, cases := [], retrainRequested := false, s := .reset, c := .reset }

/-- An empty holding buffer (R166). -/
def HoldingBuffer.empty : HoldingBuffer := ⟨none, []⟩

/-- A cleared port status (R173, R181). -/
def PortStatus.cleared : PortStatus := ⟨.ok, 0, 0, 0, none⟩

/-- The request fields at power-on (R143). -/
def resetArgs : ActionArgs := ⟨.near, 0, 0, .minus, 0⟩

/-- An action block at power-on (R143). -/
def ActionBlock.reset : ActionBlock := ⟨0, resetArgs, .none, Tab.fill 8 .none⟩

/-- A port at power-on (R173, R143, R182). -/
def Port.reset : Port :=
  { phase := .idle, pointer := 0, snapshot := none, sentRefused := false, buffer := .empty, line := .released,
    status := .cleared, action := .reset, handed := [], bitmap := 0, mask := 0 }

/-- A store that no maker has written: zeros, no legs, every policy position REFUSE. No load finds it good, since its
wiring record has no legs (R2). -/
def blankImage : FactoryImage :=
  { serial := Tab.fill 16 0, lengthCode := 0, wiring := ⟨0, [], Tab.fill 8 normalPair⟩, profile := disabledProfile,
    policy := refuseAll, hysteresis := 0, pWatch := 0, dDrop := 0, kAlarm := 0,
    legs := Tab.fill 4 ⟨0, false, false, 0, 0, 0, 0⟩, check := 0 }

/-- The part right after power-on with every reset line released: LOADING, a load running (R187; log 29). The
configuration fields hold the built-in values until the load completes (log 5, DESIGN CHOICE, unsafe); the receivers
have signal and lock (log 3, DESIGN CHOICE, unsafe); the store is blank (log 38, DESIGN CHOICE, unsafe). The failing leg
that stands beside the apply outcome NONE before any load or apply, and so in IMAGE_FAULT before any APPLY_PROFILE, is 0:
R6 and R188 give the outcome alone there (log 36, DESIGN CHOICE, unsafe). -/
def State.reset : State :=
  { pending := [], part := .loading, loadRunning := true, faultCause := .none, store := blankImage,
    serial := Tab.fill 16 0, lengthCode := 0, switchLine := false, legLines := Tab.fill 4 false, wiring := noWiring,
    current := disabledProfile, pendingProfile := disabledProfile, applyOutcome := .none, failingLeg := 0,
    route := Tab.fill 8 noRoute, inverse := Tab.fill 8 none, hysteresis := 2, pWatch := 100, dDrop := 20,
    kAlarm := 3, freeze := false, watchTimer := none, policy := refuseAll, legState := Tab.fill 4 .disabled,
    legs := Tab.fill 4 builtInLeg, busy := Tab.fill 4 ⟨false, false, false, false⟩, lanes := Tab.fill 8 .reset,
    cRx := Tab.fill 8 ⟨true, true⟩, sRx := Tab.fill 8 ⟨true, true⟩, ports := Tab.fill 5 .reset }

end Sys2Proof.Machine
end

