-- ==== Sys2Proof/Machine/Setting.lean ====
section
/-! DEFINITION. Transmit settings and the setting stack (chapter 3): the law of the setting, the presets, and every
operation of a Transmit Setting Unit with its outcome. -/

namespace Sys2Proof.Machine

/-- The outer magnitudes of a setting, the budget it spends (R61). -/
def Setting.outer (x : Setting) : Nat := x.pre.natAbs + x.post1.natAbs + x.post2.natAbs

/-- The main tap: 48 less the outer magnitudes (R61). -/
def Setting.main (x : Setting) : Int := 48 - (x.outer : Int)

/-- The law of the setting (R61). -/
def Setting.lawful (x : Setting) : Bool :=
  decide (-10 ≤ x.pre ∧ x.pre ≤ 0 ∧ -18 ≤ x.post1 ∧ x.post1 ≤ 0 ∧ -4 ≤ x.post2 ∧ x.post2 ≤ 4 ∧ 24 ≤ x.main)

/-- The four presets (R62). -/
def presetSetting (p : Fin 4) : Setting :=
  match p with
  | 0 => ⟨0, 0, 0⟩
  | 1 => ⟨-2, -6, 0⟩
  | 2 => ⟨0, -12, 0⟩
  | 3 => ⟨-4, -12, 2⟩

/-- A step direction as a number (section 3.3). -/
def directionDelta (d : Direction) : Int :=
  match d with
  | .minus => -1
  | .plus => 1

/-- The setting with tap `t` moved by one unit in direction `d`, whether or not that is possible. -/
def Setting.moved (x : Setting) (t : Tap) (d : Direction) : Setting :=
  match t with
  | .pre => { x with pre := x.pre + directionDelta d }
  | .post1 => { x with post1 := x.post1 + directionDelta d }
  | .post2 => { x with post2 := x.post2 + directionDelta d }

/-- The range R61 gives for tap `t`. -/
def Setting.tapInRange (x : Setting) (t : Tap) : Bool :=
  match t with
  | .pre => decide (-10 ≤ x.pre ∧ x.pre ≤ 0)
  | .post1 => decide (-18 ≤ x.post1 ∧ x.post1 ≤ 0)
  | .post2 => decide (-4 ≤ x.post2 ∧ x.post2 ≤ 4)

/-- A step is possible when the moved tap is in range and the main tap is at least 24 (R63). -/
def Setting.canStep (x : Setting) (t : Tap) (d : Direction) : Bool :=
  (x.moved t d).tapInRange t && decide (24 ≤ (x.moved t d).main)

/-- The depth a stack may reach (R64). -/
def stackLimit : Nat := 8

/-- STEP (R65). -/
def TxUnit.step (u : TxUnit) (t : Tap) (d : Direction) : TxUnit × ReplyOutcome :=
  if u.current.canStep t d then ({ u with current := u.current.moved t d }, .applied) else (u, .atLimit)

/-- TRY (R66): STACK_FULL is tested before the step. -/
def TxUnit.trial (u : TxUnit) (t : Tap) (d : Direction) : TxUnit × ReplyOutcome :=
  if stackLimit ≤ u.stack.length then (u, .stackFull)
  else if u.current.canStep t d then (⟨u.current.moved t d, u.current :: u.stack⟩, .applied)
  else (u, .atLimit)

/-- KEEP and DISCARD (R67). -/
def TxUnit.keep (u : TxUnit) : TxUnit × ReplyOutcome :=
  match u.stack with
  | [] => (u, .stackEmpty)
  | _ :: rest => ({ u with stack := rest }, .applied)

/-- BACK and RESTORE (R68). -/
def TxUnit.back (u : TxUnit) : TxUnit × ReplyOutcome :=
  match u.stack with
  | [] => (u, .stackEmpty)
  | x :: rest => (⟨x, rest⟩, .applied)

/-- The unit with a preset loaded and its stack emptied: PRESET (R69) and every load of a start preset (R75). -/
def TxUnit.load (p : Fin 4) : TxUnit := ⟨presetSetting p, []⟩

/-- PRESET (R69). -/
def TxUnit.preset (_u : TxUnit) (p : Fin 4) : TxUnit × ReplyOutcome := (TxUnit.load p, .applied)

/-- SAVE (R70). -/
def TxUnit.save (u : TxUnit) : TxUnit × ReplyOutcome :=
  if stackLimit ≤ u.stack.length then (u, .stackFull)
  else ({ u with stack := u.current :: u.stack }, .applied)

/-- A request of the partner applied by the Transmit Setting Unit (R89). -/
def TxUnit.serve (u : TxUnit) (r : Request) : TxUnit × ReplyOutcome :=
  match r with
  | .step t d => u.step t d
  | .trial t d => u.trial t d
  | .keep => u.keep
  | .back => u.back
  | .preset p => u.preset p

end Sys2Proof.Machine
end

