-- ==== Sys2Proof/Machine/Frame.lean ====
section
/-! DEFINITION. The tuning frame (sections 4.1, 4.2 and 12.6): its check, its layout on the line both ways, what a
receiver makes of 47 symbols, and the codes that name a request. -/

namespace Sys2Proof.Machine

/-- One bit through the check register: generator x^16 + x^12 + x^5 + 1 (R192). -/
def crcBit (r : BitVec 16) (b : Bool) : BitVec 16 :=
  if r.msb != b then (r <<< 1) ^^^ 0x1021#16 else r <<< 1

/-- The check of a sequence of bits, in the order sent; the register starts at all ones (R192). -/
def crcBits (bits : List Bool) : BitVec 16 := bits.foldl crcBit 0xFFFF#16

/-- The bits of a word, most significant first. -/
def msbBits {n : Nat} (x : BitVec n) : List Bool := (List.range n).map x.getMsbD

/-- The check of the contents of a factory image: the bytes in order, each most significant bit first (R186). -/
def imageCheck (bytes : List Byte) : BitVec 16 := crcBits (bytes.flatMap msbBits)

/-- The marker's sixteen levels 3, 3, 3, 0, 0, 0, 3, 0, 3, 3, 0, 3, 0, 0, 3, 0, two bits each (R192). -/
def marker : BitVec 32 := 0xFC0CF30C#32

/-- The fields of a frame as the line carries them (R192). `dir` and `ready` are 1 for +1 and yes. -/
structure Frame where
  session : BitVec 4
  ready : Bool
  kind : BitVec 3
  tap : BitVec 2
  dir : Bool
  preset : BitVec 3
  tag : BitVec 2
  replyTag : BitVec 3
  replyOutcome : BitVec 3
  echo : Echo
  deriving DecidableEq, Repr

/-- The 46 bits of a frame that follow the marker, before the check; the fill bit is sent as 0 (R192). -/
def Frame.payload (f : Frame) : BitVec 46 :=
  f.session ++ BitVec.ofBool f.ready ++ f.kind ++ f.tap ++ BitVec.ofBool f.dir ++ f.preset ++ f.tag ++ f.replyTag ++
    f.replyOutcome ++ f.echo.pre ++ f.echo.main ++ f.echo.post1 ++ f.echo.post2 ++ f.echo.depth ++ (0#1)

/-- A frame on the line of a transmitter of polarity NORMAL (R192). -/
def Frame.encode (f : Frame) : BitVec 94 :=
  let covered : BitVec 78 := marker ++ f.payload
  covered ++ crcBits (msbBits covered)

/-- The fields that 94 bits carry where a frame carries them (R192). -/
def Frame.parse (x : BitVec 94) : Frame :=
  { session := x.extractLsb' 58 4
    ready := x.getLsbD 57
    kind := x.extractLsb' 54 3
    tap := x.extractLsb' 52 2
    dir := x.getLsbD 51
    preset := x.extractLsb' 48 3
    tag := x.extractLsb' 46 2
    replyTag := x.extractLsb' 43 3
    replyOutcome := x.extractLsb' 40 3
    echo :=
      { pre := x.extractLsb' 36 4
        main := x.extractLsb' 30 6
        post1 := x.extractLsb' 25 5
        post2 := x.extractLsb' 21 4
        depth := x.extractLsb' 17 4 } }

/-- Symbols of two bits each through a receiver or a transmitter of the given polarity: INVERTED reverses the four levels
of every symbol, x to 3 - x, which is the complement of its two bits (R4, R9). -/
def throughPolarity {n : Nat} (pol : Polarity) (x : BitVec n) : BitVec n :=
  match pol with
  | .normal => x
  | .inverted => ~~~x

/-- What a receiver finds in 47 recovered symbols (R81, R82). -/
inductive Reception where
  /-- marker in its normal form and the check matches -/
  | good (f : Frame)
  /-- marker in its normal form, the check does not match -/
  | badCheck
  /-- marker in its inverted form -/
  | inverted
  /-- neither marker -/
  | noMarker
  deriving DecidableEq, Repr

/-- A receiver of polarity `pol` on 47 symbols of its line (R4, R81, R82, R192). -/
def receive (pol : Polarity) (line : BitVec 94) : Reception :=
  let x := throughPolarity pol line
  if x.extractLsb' 62 32 = marker then
    if crcBits (msbBits (x.extractLsb' 16 78)) = x.extractLsb' 0 16 then .good (Frame.parse x) else .badCheck
  else if x.extractLsb' 62 32 = ~~~marker then .inverted
  else .noMarker

/-- The tap a code names (R71, 12.7). -/
def tapOfCode (c : Nat) : Option Tap :=
  match c with
  | 0 => some .pre
  | 1 => some .post1
  | 2 => some .post2
  | _ => none

/-- The preset a code names (R62, R71). -/
def presetOfCode (c : Nat) : Option (Fin 4) :=
  if h : c < 4 then some ⟨c, h⟩ else none

/-- The request field of a frame: no request, a request whose codes name nothing (answered BAD_REQUEST, R89, R192), or a
request. -/
inductive RequestField where
  | none
  | bad
  | request (r : Request)
  deriving DecidableEq, Repr

/-- The direction a frame's direction bit gives (R192: 1 is +1). -/
def directionOfBit (b : Bool) : Direction := if b then .plus else .minus

/-- What a frame's request field asks (R80, R89, R192; kind codes of 12.7). -/
def Frame.request (f : Frame) : RequestField :=
  match f.kind.toNat with
  | 0 => .none
  | 1 => match tapOfCode f.tap.toNat with
    | some t => .request (.step t (directionOfBit f.dir))
    | none => .bad
  | 2 => match tapOfCode f.tap.toNat with
    | some t => .request (.trial t (directionOfBit f.dir))
    | none => .bad
  | 3 => .request .keep
  | 4 => .request .back
  | 5 => match presetOfCode f.preset.toNat with
    | some p => .request (.preset p)
    | none => .bad
  | _ => .bad

/-- The reply tag of a frame; 4 is NONE and 5 to 7 are taken as NONE (R192). -/
def Frame.reply? (f : Frame) : Option (Fin 4) :=
  if h : f.replyTag.toNat < 4 then some ⟨f.replyTag.toNat, h⟩ else none

/-- The reply outcome of a frame; 6 and 7 are taken as NONE (R192, codes of 12.7). -/
def Frame.outcome (f : Frame) : ReplyOutcome :=
  match f.replyOutcome.toNat with
  | 1 => .applied
  | 2 => .atLimit
  | 3 => .stackFull
  | 4 => .stackEmpty
  | 5 => .badRequest
  | _ => .none

/-- The session number of a frame. -/
def Frame.sessionNumber (f : Frame) : Fin 16 := ⟨f.session.toNat, f.session.isLt⟩

/-- The request tag of a frame. -/
def Frame.requestTag (f : Frame) : Fin 4 := ⟨f.tag.toNat, f.tag.isLt⟩

end Sys2Proof.Machine
end

