-- ==== Sys2Proof/Machine/Ops.lean ====
section
/-! DEFINITION. The named operations on one side of a lane that every rule shares: timers, counters, going IDLE, DETECT
entry, the Requester, the scanner's record. Side operations that can end a search give an `Out`. -/

namespace Sys2Proof.Machine

/-! ## Constants (timer table of section 2.2, R57, R180) -/

/-- T_acquire, ms. -/
def msAcquire : Nat := 60
/-- T_relock, ms. -/
def msRelock : Nat := 2
/-- T_tune, ms. -/
def msTune : Nat := 800
/-- T_reply, ms. -/
def msReply : Nat := 4
/-- T_settle, ms. -/
def msSettle : Nat := 1
/-- T_quiet, ms. -/
def msQuiet : Nat := 100
/-- The maximum of a lane counter and of a scan count (R57, R103). -/
def counterMax : Nat := 65535
/-- The maximum of a port status count (R180). -/
def statusMax : Nat := 255
/-- The maximum of a consecutive-low count (R130). -/
def lowMax : Nat := 15
/-- The failures after which a lane enters FAULT (R44). -/
def retryBudget : Nat := 4
/-- The unordered comparisons that fail a search (R117, R124). -/
def unorderedLimit : Nat := 3
/-- The passes of a search at most (R118). -/
def passLimit : Nat := 4
/-- The largest edge offset (R105). -/
def offsetMax : Nat := 31
/-- The disagreements a passing window may count (R105). -/
def disagreementLimit : Nat := 3

/-- A saturating increment (00_scope, "Saturating"). -/
def satInc (max n : Nat) : Nat := if n < max then n + 1 else n

/-! ## What a side reads from the part at an event -/

/-- The values a side's rules read at the moment of an event: H (R112), the leg's accept threshold, low-margin accept,
auto-retrain and partner start preset (R24 to R26), D_drop and K_alarm (R131), and whether the side's receiver has
lock (R104). -/
structure Ctx where
  hysteresis : Nat
  threshold : Nat
  lowMargin : Bool
  autoRetrain : Bool
  partnerPreset : Fin 4
  dDrop : Nat
  kAlarm : Nat
  locked : Bool
  deriving DecidableEq, Repr

/-- What an event on a side leaves: the side, the reason if it fails the segment, and whether the Margin Watch requests a
retrain of the lane. -/
structure Out where
  half : Half
  fail : Option FailReason
  retrain : Bool
  deriving DecidableEq, Repr

/-- An event that neither fails the segment nor requests a retrain. -/
def Out.ok (h : Half) : Out := ⟨h, none, false⟩

/-- A second part of the same event: it acts on the side the first part left, unless that failed the segment. -/
def Out.andThen (o : Out) (f : Half → Out) : Out :=
  match o.fail with
  | some _ => o
  | none => ⟨(f o.half).half, (f o.half).fail, o.retrain || (f o.half).retrain⟩

/-! ## Scans in flight -/

/-- The scan in flight has the given origin. -/
def Half.scanning (h : Half) (o : Origin) : Bool :=
  match h.scan.inFlight with
  | some sc => decide (sc.origin = o)
  | none => false

/-- Abandon a scan in flight of the given origin; it records nothing (R109). -/
def Half.abandon (h : Half) (o : Origin) : Half :=
  if h.scanning o then { h with scan := { h.scan with inFlight := none } } else h

/-- Abandon any scan in flight, whatever its origin, with any waiting search request (R40, R41, R109). -/
def Half.abandonAll (h : Half) : Half :=
  { h with scan := { h.scan with inFlight := none, waiting := false } }

/-! ## The segment: going IDLE, DETECT entry, resets -/

/-- The search ends: T_settle stops, and a phase other than NONE and ACCEPTED becomes HALTED (R114). -/
def Search.halt (q : Search) : Search :=
  { q with
    tSettle := none
    phase := match q.phase with
      | .none => .none
      | .accepted => .accepted
      | _ => .halted }

/-- The segment is set IDLE (R39): its timers stop, the outstanding request is dropped, the search ends, and a SEARCH scan
or a waiting search request is abandoned. Everything else is kept. -/
def Half.setIdle (h : Half) : Half :=
  let h := h.abandon .search
  { h with
    seg := { h.seg with state := .idle, tAcquire := none, tRelock := none, tTune := none }
    req := { h.req with outstanding := none, handed := none, tReply := none }
    search := h.search.halt
    scan := { h.scan with waiting := false } }

/-- DETECT entry with transmitter start preset `p` (R32, R75, R91, R94, R96, R97, R100, R129). The failure reason, the
final FOM, the scanner and the watch record are kept. -/
def Half.detectEntry (h : Half) (p : Fin 4) : Half :=
  { h with
    seg := { h.seg with
      state := .detect, own := h.seg.own + 1, partner := none, polaritySuspect := false, marginal := false,
      tAcquire := some msAcquire, tRelock := none, tTune := none, synchronised := false, ownReady := false,
      partnerReady := false, echo := ⟨0, 0, 0, 0, 0⟩ }
    tx := TxUnit.load p
    resp := ⟨none, .none⟩
    req := .reset
    search := .reset }

/-- The SOFT_RESET values of a side with transmitter preset `p` (R31, R59, R76, R102, R103, R126, R129, R130). The own
session number is kept. -/
def Half.softReset (h : Half) (p : Fin 4) : Half :=
  { h with
    seg := { SegControl.reset with own := h.seg.own }
    tx := TxUnit.load p
    resp := ⟨none, .none⟩
    req := .reset
    search := .reset
    scan := .reset
    watch := .reset
    frameErrors := 0
    watchAlarms := 0 }

/-! ## The Requester (section 4.6) -/

/-- Issue a request: it takes the next tag, and T_reply starts (R93). -/
def Requester.issue (q : Requester) (r : Request) : Requester :=
  { q with outstanding := some (r, q.nextTag), handed := none, nextTag := q.nextTag + 1, tReply := some msReply }

/-- The search hands a request to the Requester, which issues it if the segment is synchronised and lets it wait
otherwise (R93, R94). -/
def Half.hand (h : Half) (r : Request) : Half :=
  if h.seg.synchronised then { h with req := h.req.issue r }
  else { h with req := { h.req with handed := some r } }

/-- The synchronised flag is set, which issues a request that waits for it (R94). -/
def Half.synchronise (h : Half) : Half :=
  let h := { h with seg := { h.seg with synchronised := true } }
  match h.req.handed with
  | some r => { h with req := h.req.issue r }
  | none => h

/-! ## The scanner's record (section 5.1) -/

/-- The value of edge `n` of a list of edges, 0 if it is not there. -/
def edgeValue (edges : List Nat) (n : Nat) : Nat := edges.getD n 0

/-- The height of sub-eye `n` (0 upper, 1 middle, 2 lower): up edge plus down edge (R106). -/
def height (edges : List Nat) (n : Nat) : Nat := edgeValue edges (2 * n) + edgeValue edges (2 * n + 1)

/-- The figure of merit of six edges (R111). -/
def figureOfMerit (edges : List Nat) : Nat :=
  2 * min (height edges 0) (min (height edges 1) (height edges 2)) +
    (height edges 0 + height edges 1 + height edges 2) / 3

/-- Record a reading and clear the scan in flight (R107, R108). -/
def Half.record (h : Half) (r : Reading) : Half :=
  { h with scan := { h.scan with inFlight := none, last := r, count := satInc counterMax h.scan.count } }

/-- The reading NO READING of a scan of origin `o` (R108). -/
def Reading.noReading (o : Origin) : Reading := ⟨some o, [0, 0, 0, 0, 0, 0], none⟩

end Sys2Proof.Machine
end

