-- ==== Sys2Proof/Machine/Search.lean ====
section
/-! DEFINITION. The tuning search (section 5.4), the Margin Watch's judgement of a reading (section 6.4), and the scanner
(section 5.1), all on one side of a lane. -/

namespace Sys2Proof.Machine

/-! ## Comparing readings -/

/-- The four results of a comparison (R113). -/
inductive Comparison where
  | unordered | equal | better | worse
  deriving DecidableEq, Repr

/-- A new reading against a reference, with hysteresis `hyst` (R113). -/
def compareReadings (hyst : Nat) (new ref : Fom) : Comparison :=
  match new, ref with
  | some n, some r => if r + hyst < n then .better else if n + hyst < r then .worse else .equal
  | _, _ => .unordered

/-! ## The search -/

/-- The search starts (R115): it initialises and hands over a PRESET of the leg's partner start preset. -/
def Half.startSearch (ctx : Ctx) (h : Half) : Half :=
  Half.hand { h with search := { Search.reset with phase := .opening } } (.preset ctx.partnerPreset)

/-- A TRY of the search's current tap and direction is handed over (R120). -/
def Half.handTrial (h : Half) : Half :=
  Half.hand { h with search := { h.search with phase := .trying } } (.trial h.search.tap h.search.dir)

/-- The search accepts, with or without the MARGINAL flag (R96, R126). -/
def Half.accept (h : Half) (marginal : Bool) : Half :=
  { h with
    search := { h.search with phase := .accepted }
    seg := { h.seg with ownReady := true, marginal := marginal } }

/-- The end of the last pass (R125). A reference that is NO READING cannot stand here (R117); it counts as below the
threshold (log 27). -/
def Half.acceptance (ctx : Ctx) (h : Half) : Out :=
  let reached := match h.search.reference with
    | some r => decide (ctx.threshold ≤ r)
    | none => false
  if reached then Out.ok (h.accept false)
  else if ctx.lowMargin then Out.ok (h.accept true)
  else ⟨h, some .lowMargin, false⟩

/-- A tap of a pass begins, direction -1 first (R118). -/
def Half.startTap (h : Half) (t : Tap) : Half :=
  Half.handTrial { h with search := { h.search with tap := t, dir := .minus, tapMoved := false } }

/-- The POST2 tap of a pass has ended (R118). -/
def Half.endPass (ctx : Ctx) (h : Half) : Out :=
  if h.search.passMoved && decide (h.search.pass < passLimit) then
    Out.ok (Half.startTap { h with search := { h.search with pass := h.search.pass + 1, passMoved := false } } .post1)
  else h.acceptance ctx

/-- A direction has ended (R119). -/
def Half.endDirection (ctx : Ctx) (h : Half) : Out :=
  if h.search.dir = .minus ∧ h.search.tapMoved = false then
    Out.ok (Half.handTrial { h with search := { h.search with dir := .plus } })
  else
    match h.search.tap with
    | .post1 => Out.ok (h.startTap .pre)
    | .pre => Out.ok (h.startTap .post2)
    | .post2 => h.endPass ctx

/-- The search waits T_settle in the given phase (R116, R117, R120). -/
def Half.settleIn (h : Half) (p : Phase) : Half :=
  { h with search := { h.search with phase := p, tSettle := some msSettle } }

/-- The search's outstanding request is answered (R116, R120, R122, R123). -/
def Half.answered (ctx : Ctx) (h : Half) (o : ReplyOutcome) : Out :=
  match h.search.phase with
  | .opening =>
    match o with
    | .applied => Out.ok (h.settleIn .reference)
    | _ => ⟨h, some .partnerRefused, false⟩
  | .trying =>
    match o with
    | .applied => Out.ok (h.settleIn .measuring)
    | .atLimit => h.endDirection ctx
    | .stackFull => h.endDirection ctx
    | _ => ⟨h, some .partnerRefused, false⟩
  | .keeping =>
    match o with
    | .applied => Out.ok (Half.handTrial
        { h with search := { h.search with reference := h.search.trialReading, tapMoved := true, passMoved := true } })
    | .stackEmpty => ⟨h, some .partnerStack, false⟩
    | _ => ⟨h, some .partnerRefused, false⟩
  | .backing =>
    match o with
    | .applied => h.endDirection ctx
    | .stackEmpty => ⟨h, some .partnerStack, false⟩
    | _ => ⟨h, some .partnerRefused, false⟩
  | _ => Out.ok h

/-- The trial is closed by a KEEP (R122) or a BACK (R123). -/
def Half.close (h : Half) (p : Phase) (r : Request) : Half :=
  Half.hand { h with search := { h.search with phase := p } } r

/-- A NO READING or an unordered comparison is counted; the third fails the segment (R117, R124). -/
def Half.countUnordered (h : Half) (next : Half → Half) : Out :=
  let h := { h with search := { h.search with unordered := h.search.unordered + 1 } }
  if unorderedLimit ≤ h.search.unordered then ⟨h, some .noReading, false⟩ else Out.ok (next h)

/-- A SEARCH reading reaches the search (R117, R121, R124). -/
def Half.searchReading (ctx : Ctx) (h : Half) (r : Fom) : Out :=
  match h.search.phase with
  | .reference =>
    match r with
    | some f => Out.ok (Half.startTap
        { h with search := { h.search with reference := some f, pass := 1, passMoved := false } } .post1)
    | none => h.countUnordered fun h => h.settleIn .reference
  | .measuring =>
    let h := { h with search := { h.search with trialReading := r } }
    match compareReadings ctx.hysteresis r h.search.reference with
    | .better => Out.ok (h.close .keeping .keep)
    | .equal => Out.ok (h.close .backing .back)
    | .worse => Out.ok (h.close .backing .back)
    | .unordered => h.countUnordered fun h => h.close .backing .back
  | _ => Out.ok h

/-! ## The Margin Watch's judgement -/

/-- A reading is an alarm reading (R135). -/
def alarmReading (dDrop : Nat) (baseline reading : Fom) : Bool :=
  match reading, baseline with
  | none, _ => true
  | some f, some b => decide (f + dDrop ≤ b)
  | some _, none => false

/-- A WATCH reading is judged (R135 to R138). A baseline of NO READING cannot stand in CARRY (R134); a FOM against it is no
alarm. -/
def Half.watchReading (ctx : Ctx) (h : Half) (r : Fom) : Out :=
  if alarmReading ctx.dDrop h.watch.baseline r then
    let low := satInc lowMax h.watch.low
    ⟨{ h with
        watch := { h.watch with alarm := true, low := low }
        watchAlarms := satInc counterMax h.watchAlarms },
      none, ctx.autoRetrain && decide (ctx.kAlarm ≤ low)⟩
  else Out.ok { h with watch := { h.watch with low := 0 } }

/-! ## Scans start and end -/

/-- A reading is handed to the origin of its scan (R107). -/
def Half.handReading (ctx : Ctx) (h : Half) (o : Origin) (r : Fom) : Out :=
  match o with
  | .search => h.searchReading ctx r
  | .watch => h.watchReading ctx r
  | .action => Out.ok h

/-- A scan starts on a receiver with none in flight; without lock it ends in the same event with NO READING (R104,
R108). -/
def Half.startScan (ctx : Ctx) (h : Half) (o : Origin) : Out :=
  if ctx.locked then Out.ok { h with scan := { h.scan with inFlight := some ⟨o, 1, []⟩ } }
  else (h.record (Reading.noReading o)).handReading ctx o none

/-- The waiting search request, if any, starts at the end of a scan if the segment is still in EXCHANGE, and is discarded
otherwise (R104). -/
def Half.startWaiting (ctx : Ctx) (h : Half) : Out :=
  if h.scan.waiting then
    let h := { h with scan := { h.scan with waiting := false } }
    if h.seg.state = .exchange then h.startScan ctx .search else Out.ok h
  else Out.ok h

/-- The scan in flight of origin `o` ends with a reading: it is recorded, handed over, and a waiting search request
starts (R107, R108). -/
def Half.endScan (ctx : Ctx) (h : Half) (o : Origin) (r : Reading) : Out :=
  ((h.record r).handReading ctx o r.fom).andThen fun h => h.startWaiting ctx

/-- The receiver loses lock: a scan in flight ends with NO READING (R108). -/
def Half.scanLosesLock (ctx : Ctx) (h : Half) : Out :=
  match h.scan.inFlight with
  | some sc => h.endScan ctx sc.origin (Reading.noReading sc.origin)
  | none => Out.ok h

/-- A SEARCH scan is requested: it starts at once, or waits for the scan in flight to end (R104). -/
def Half.requestSearchScan (ctx : Ctx) (h : Half) : Out :=
  match h.scan.inFlight with
  | some _ => Out.ok { h with scan := { h.scan with waiting := true } }
  | none => h.startScan ctx .search

/-- A WATCH scan is requested: a receiver with a scan in flight declines and is skipped (R104, R133). -/
def Half.requestWatchScan (ctx : Ctx) (h : Half) : Out :=
  match h.scan.inFlight with
  | some _ => Out.ok h
  | none => h.startScan ctx .watch

/-- A scan whose edge has ended with value `v`: the next edge begins, or the scan completes (R105 to R107). -/
def Half.endEdge (ctx : Ctx) (h : Half) (sc : Scan) (v : Nat) : Out :=
  let edges := sc.edges ++ [v]
  if edges.length < 6 then Out.ok { h with scan := { h.scan with inFlight := some ⟨sc.origin, 1, edges⟩ } }
  else h.endScan ctx sc.origin ⟨some sc.origin, edges, some (figureOfMerit edges)⟩

/-- A window of the scan in flight ends with `count` disagreements (R105). -/
def Half.windowEnd (ctx : Ctx) (h : Half) (count : Nat) : Out :=
  match h.scan.inFlight with
  | none => Out.ok h
  | some sc =>
    if disagreementLimit < count then h.endEdge ctx sc (sc.offset - 1)
    else if sc.offset < offsetMax then
      Out.ok { h with scan := { h.scan with inFlight := some { sc with offset := sc.offset + 1 } } }
    else h.endEdge ctx sc sc.offset

end Sys2Proof.Machine
end

