-- ==== Sys2Proof/Machine/Exchange.lean ====
section
/-! DEFINITION. Taking a good frame (sections 4.3 to 4.8) on one side of a lane that is not in CARRY: sessions, the
synchronised test, replies, requests, readiness, the echo, and DONE entry. -/

namespace Sys2Proof.Machine

/-- EXCHANGE entry from DETECT (R33, R34): the frame's session becomes the partner session and the search starts. -/
def Half.enterExchange (ctx : Ctx) (h : Half) (session : Fin 16) : Half :=
  Half.startSearch ctx
    { h with seg := { h.seg with
        state := .exchange, partner := some session, tAcquire := none, tTune := some msTune } }

/-- A new partner session is adopted in EXCHANGE (R85). -/
def Half.adopt (h : Half) (session : Fin 16) : Half :=
  { h with
    seg := { h.seg with partner := some session, partnerReady := false }
    resp := ⟨none, .none⟩ }

/-- A partner restart in DONE (R38, R86): the segment re-enters EXCHANGE and its search begins again. The own session,
the setting and the stack stay. -/
def Half.restart (ctx : Ctx) (h : Half) (session : Fin 16) : Half :=
  Half.startSearch ctx
    { h with
      seg := { h.seg with
        state := .exchange, partner := some session, marginal := false, tTune := some msTune,
        synchronised := false, ownReady := false, partnerReady := false }
      resp := ⟨none, .none⟩
      req := { h.req with nextTag := 0, handed := none } }

/-- The session field of a good frame (R84): DETECT ends, EXCHANGE may adopt, DONE may restart. -/
def Half.takeSession (ctx : Ctx) (h : Half) (f : Frame) : Half :=
  match h.seg.state with
  | .idle => h
  | .detect => h.enterExchange ctx f.sessionNumber
  | .exchange => if h.seg.partner = some f.sessionNumber then h else h.adopt f.sessionNumber
  | .done => if h.seg.partner = some f.sessionNumber then h else h.restart ctx f.sessionNumber

/-- The synchronised test: the first good frame taken in EXCHANGE whose reply tag is NONE (R94). -/
def Half.takeSync (h : Half) (f : Frame) : Half :=
  if h.seg.state = .exchange ∧ f.reply?.isNone ∧ h.seg.synchronised = false then h.synchronise else h

/-- The frame's reply answers the outstanding request (R92). -/
def Half.replyAnswers (h : Half) (f : Frame) : Bool :=
  match h.req.outstanding with
  | some (_, tag) => decide (f.reply? = some tag) && decide (f.outcome ≠ .none)
  | none => false

/-- The reply field of a good frame, taken in EXCHANGE by the Requester (R92). -/
def Half.takeReply (ctx : Ctx) (h : Half) (f : Frame) : Out :=
  if h.seg.state = .exchange ∧ h.replyAnswers f = true then
    Half.answered ctx
      { h with req := { h.req with
          outstanding := none, tReply := none, lastReply := f.reply?.map fun t => (t, f.outcome) } }
      f.outcome
  else Out.ok h

/-- A new request is applied and its outcome stored under its tag (R88, R89). -/
def Half.serveNew (h : Half) (r : Option Request) (tag : Fin 4) : Half :=
  match r with
  | none => { h with resp := ⟨some tag, .badRequest⟩ }
  | some r => { h with tx := (h.tx.serve r).1, resp := ⟨some tag, (h.tx.serve r).2⟩ }

/-- The request field of a good frame, taken by the Responder in EXCHANGE and DONE: none, a repeat by its tag, or new
(R88). -/
def Half.takeRequest (h : Half) (f : Frame) : Half :=
  match f.request with
  | .none => h
  | .bad => if h.resp.lastTag = some f.requestTag then h else h.serveNew none f.requestTag
  | .request r => if h.resp.lastTag = some f.requestTag then h else h.serveNew (some r) f.requestTag

/-- The rx_ready field of a good frame, taken in EXCHANGE (R97). -/
def Half.takeReady (h : Half) (f : Frame) : Half :=
  if h.seg.state = .exchange ∧ f.ready = true ∧ h.seg.synchronised = true then
    { h with seg := { h.seg with partnerReady := true } }
  else h

/-- The echo field of a good frame is recorded as received (R100). -/
def Half.takeEcho (h : Half) (f : Frame) : Half :=
  { h with seg := { h.seg with echo := f.echo } }

/-- DONE entry, when both readiness flags are set in EXCHANGE (R35, R98, R126). -/
def Half.tryDone (h : Half) : Half :=
  if h.seg.state = .exchange ∧ h.seg.ownReady = true ∧ h.seg.partnerReady = true then
    { h with seg := { h.seg with
        state := .done, tTune := none, reason := .none, finalFom := h.search.reference } }
  else h

/-- A good frame taken in DETECT, EXCHANGE or DONE with the lane not in CARRY (R84). Every field is taken as received; a
failure of the segment by the reply is left in `fail` and taken by the lane after them (log 9). -/
def Half.takeFrame (ctx : Ctx) (h : Half) (f : Frame) : Out :=
  let o := ((h.takeSession ctx f).takeSync f).takeReply ctx f
  { o with half := (((o.half.takeRequest f).takeReady f).takeEcho f).tryDone }

end Sys2Proof.Machine
end

