-- ==== Sys2Proof/Machine/LaneEngine.lean ====
section
/-! DEFINITION. The Lane Engine and the Leg Engine (chapter 2): a lane's state entries, what they do to its peers, and
how an event on a side reaches its lane. -/

namespace Sys2Proof.Machine

/-! ## Reading and writing the state -/

/-- Cable lane `i`. -/
def State.lane (s : State) (i : LaneId) : Lane := s.lanes.get i

/-- Replace cable lane `i`. -/
def State.setLane (s : State) (i : LaneId) (l : Lane) : State := { s with lanes := s.lanes.set i l }

/-- One side of a lane. -/
def Lane.half (l : Lane) (d : Side) : Half :=
  match d with
  | .S => l.s
  | .C => l.c

/-- Replace one side of a lane. -/
def Lane.setHalf (l : Lane) (d : Side) (h : Half) : Lane :=
  match d with
  | .S => { l with s := h }
  | .C => { l with c := h }

/-- Rewrite both sides of a lane. -/
def Lane.mapHalves (l : Lane) (f : Half → Half) : Lane := { l with s := f l.s, c := f l.c }

/-- The leg a cable lane belongs to (R10), if it is wired. -/
def State.legOf (s : State) (i : LaneId) : Option LegId := (s.route.get i).leg

/-- The transmitter start preset of a side of a leg's lanes (R26). -/
def LegConfig.txPreset (c : LegConfig) (d : Side) : Fin 4 :=
  match d with
  | .S => c.sTx
  | .C => c.cTx

/-- The partner start preset of a side of a leg's lanes (R26). -/
def LegConfig.partnerPreset (c : LegConfig) (d : Side) : Fin 4 :=
  match d with
  | .S => c.sPartner
  | .C => c.cPartner

/-- The configuration of the leg of lane `i`; the built-in one for an unwired lane, which no engine reads (R27). -/
def State.legConfig (s : State) (i : LaneId) : LegConfig :=
  match s.legOf i with
  | some k => s.legs.get k
  | none => builtInLeg

/-- The receiver of a side has lock: on the C side its pair's, on the S side that of the pair the S-segment stands on; an
S-segment on no pairs recovers nothing (R9, log 14). -/
def State.locked (s : State) (i : LaneId) (d : Side) : Bool :=
  match d with
  | .C => (s.cRx.get i).lock
  | .S =>
    match (s.lane i).sPair with
    | some p => (s.sRx.get p).lock
    | none => false

/-- What the rules of a side read from the part at this event. -/
def State.ctx (s : State) (i : LaneId) (d : Side) : Ctx :=
  { hysteresis := s.hysteresis
    threshold := (s.legConfig i).threshold
    lowMargin := (s.legConfig i).lowMargin
    autoRetrain := (s.legConfig i).autoRetrain
    partnerPreset := (s.legConfig i).partnerPreset d
    dDrop := s.dDrop
    kAlarm := s.kAlarm
    locked := s.locked i d }

/-! ## The hold set (section 2.4) -/

/-- The hold set has no member. -/
def HoldSet.isEmpty (h : HoldSet) : Bool := !h.switch && !h.leg && !h.line

/-- No member. -/
def HoldSet.none : HoldSet := ⟨false, false, false⟩

/-! ## Lane state entries (section 2.3) -/

/-- TRAIN fresh, with the leg's transmitter start presets: both segments IDLE and then DETECT (R42, R32). A WATCH scan is
abandoned and a watch retrain request still on its way will find the lane out of CARRY (R109, R49; log 15). -/
def Lane.trainFresh (cfg : LegConfig) (l : Lane) : Lane :=
  { l with
    state := .train
    trainings := satInc counterMax l.trainings
    tQuiet := none
    retrainRequested := false
    s := Half.detectEntry ((l.s.abandon .watch).setIdle) cfg.sTx
    c := Half.detectEntry ((l.c.abandon .watch).setIdle) cfg.cTx }

/-- DOWN entry (R41): fc 0, both segments IDLE, every scan abandoned, the quiet timer stopped. -/
def Lane.enterDown (l : Lane) : Lane :=
  { l with
    state := .down
    fc := 0
    tQuiet := none
    retrainRequested := false
    s := l.s.abandonAll.setIdle
    c := l.c.abandonAll.setIdle }

/-- A lane in DOWN with an empty hold set goes on to TRAIN fresh (R41, R52). -/
def Lane.goOn (cfg : LegConfig) (l : Lane) : Lane :=
  if l.state = .down ∧ l.hold.isEmpty = true then l.trainFresh cfg else l

/-- Both transmitters take a setting with an empty stack (R76). -/
def Lane.loadTx (l : Lane) (ps pc : Fin 4) : Lane :=
  { l with s := { l.s with tx := TxUnit.load ps }, c := { l.c with tx := TxUnit.load pc } }

/-- OFF entry (R40, R18): no hold, fc 0, both segments IDLE, every scan abandoned, transmitters at P0 (R76). The lane
stands on no pairs and has no case left to take (log 12). The counters are kept. -/
def Lane.enterOff (l : Lane) : Lane :=
  Lane.loadTx
    { l with
      state := .off
      hold := HoldSet.none
      fc := 0
      tQuiet := none
      sPair := none
      cases := []
      retrainRequested := false
      s := l.s.abandonAll.setIdle
      c := l.c.abandonAll.setIdle }
    0 0

/-- OFF to DOWN when the lane's leg is enabled: the leg's start presets are loaded (R76, R77), LINE joins if the leg's
reset line is asserted (R18, R53), the S-segment takes up its pairs (R9), and the lane goes on to TRAIN if nothing
holds it. -/
def Lane.enable (cfg : LegConfig) (line : Bool) (pair : Option SwitchLane) (l : Lane) : Lane :=
  Lane.goOn cfg
    (Lane.loadTx
      { l.enterDown with hold := { HoldSet.none with line := line }, sPair := pair, cases := [] }
      cfg.sTx cfg.cTx)

/-- A segment of a lane in TRAIN or READY has failed with reason `r` (R37, R44): the reason is recorded, fc and the
training failures rise, both segments go IDLE, and the lane rests in WAIT or gives up in FAULT. -/
def Lane.fail (d : Side) (r : FailReason) (l : Lane) : Lane :=
  let h := l.half d
  let l := l.setHalf d { h with seg := { h.seg with reason := r } }
  let fc := l.fc + 1
  { l with
    fc := fc
    failures := satInc counterMax l.failures
    state := if fc < retryBudget then .wait else .fault
    tQuiet := if fc < retryBudget then some msQuiet else none
    s := l.s.setIdle
    c := l.c.setIdle }

/-- CARRY entry (R55, R134): fc 0; each receiver's baseline is its segment's final FOM, its alarm state starts again. -/
def Lane.enterCarry (l : Lane) : Lane :=
  Lane.mapHalves { l with state := .carry, fc := 0 }
    fun h => { h with watch := ⟨h.seg.finalFom, false, 0⟩ }

/-- The Leg Engine pulls a lane in CARRY back to READY: its tuning is kept, its WATCH scans are abandoned (R56, R109). -/
def Lane.pullBack (l : Lane) : Lane :=
  Lane.mapHalves { l with state := .ready, retrainRequested := false } fun h => h.abandon .watch

/-! ## The Leg Engine (section 2.5) -/

/-- Rewrite every lane of leg `k` (R10). -/
def State.mapLeg (s : State) (k : LegId) (f : LaneId → Lane → Lane) : State :=
  { s with lanes := s.lanes.mapIdx fun i l => if s.legOf i = some k then f i l else l }

/-- The lanes of leg `k`. -/
def State.legLanes (s : State) (k : LegId) : List LaneId :=
  (Tab.indices 8).filter fun i => decide (s.legOf i = some k)

/-- Lane `i` of leg `k` has left CARRY: the leg's other CARRY lanes move to READY and the leg is FORMING (R56). -/
def State.pullBackPeers (s : State) (k : LegId) (i : LaneId) : State :=
  let s := s.mapLeg k fun j l => if j ≠ i ∧ l.state = .carry then l.pullBack else l
  { s with legState := s.legState.set k .forming }

/-- A lane takes an event that rewrites it; if it leaves CARRY by it, the Leg Engine responds (R56). -/
def State.moveLane (s : State) (i : LaneId) (f : Lane → Lane) : State :=
  let l := s.lane i
  let s' := s.setLane i (f l)
  if l.state = .carry ∧ (f l).state ≠ .carry then
    match s.legOf i with
    | some k => s'.pullBackPeers k i
    | none => s'
  else s'

/-- A lane in TRAIN whose segments are both DONE enters READY, and the leg enters CARRY if every lane of it is READY (R43,
R55). -/
def State.readyCheck (s : State) (i : LaneId) : State :=
  let l := s.lane i
  if l.state = .train ∧ l.s.seg.state = .done ∧ l.c.seg.state = .done then
    let s := s.setLane i { l with state := .ready }
    match s.legOf i with
    | some k =>
      if (s.legLanes k).all (fun j => decide ((s.lane j).state = .ready)) then
        let s := s.mapLeg k fun _ l => l.enterCarry
        { s with legState := s.legState.set k .live }
      else s
    | none => s
  else s

/-! ## Events of a side reach its lane -/

/-- A drop: a lane in CARRY enters TRAIN fresh, counting one drop (R48). -/
def State.drop (s : State) (i : LaneId) : State :=
  s.moveLane i fun l => { l.trainFresh (s.legConfig i) with drops := satInc counterMax l.drops }

/-- A segment of lane `i` fails (R37, R44). A lane in CARRY does not fail (it drops), and a segment in IDLE takes no
failure. -/
def State.failSegment (s : State) (i : LaneId) (d : Side) (r : FailReason) : State :=
  let l := s.lane i
  if (l.state = .train ∨ l.state = .ready) ∧ (l.half d).seg.state ≠ .idle then s.setLane i (l.fail d r) else s

/-- A lane whose segment has returned to EXCHANGE from DONE leaves READY for TRAIN (R47). -/
def Lane.afterRestart (l : Lane) (d : Side) : Lane :=
  if l.state = .ready ∧ (l.half d).seg.state = .exchange then { l with state := .train } else l

/-- What an event on side `d` of lane `i` leaves is taken by the lane: a retrain request of the watch is noted (R139), a
failure is taken (R44), and otherwise the lane follows its segments (R43, R47). -/
def State.applyOut (s : State) (i : LaneId) (d : Side) (o : Out) : State :=
  let l := (s.lane i).setHalf d o.half
  let s := s.setLane i { l with retrainRequested := l.retrainRequested || o.retrain }
  match o.fail with
  | some r => s.failSegment i d r
  | none => (s.setLane i ((s.lane i).afterRestart d)).readyCheck i

end Sys2Proof.Machine
end

