-- ==== Sys2Proof/Machine/RouteMap.lean ====
section
/-! DEFINITION. The Route Map Unit (chapter 1): the wiring test, where a leg lane lands, the route table and its inverse,
validation of a profile, and applying one. -/

namespace Sys2Proof.Machine

/-! ## The wiring record -/

/-- A lane count a leg may have (R1). -/
def laneCountOk (n : Nat) : Bool := n == 1 || n == 2 || n == 4 || n == 8

/-- The lane lists of the present legs of a wiring record as an image holds it. -/
def presentLegs (w : RawWiring) : List RawLeg := w.legs.take w.legCount

/-- No value stands twice in a list. -/
def distinct : List Nat → Bool
  | [] => true
  | x :: xs => !xs.contains x && distinct xs

/-- A wiring record is valid (R2). -/
def wiringValid (w : RawWiring) : Bool :=
  decide (1 ≤ w.legCount) && decide (w.legCount ≤ 4) && decide ((presentLegs w).length = w.legCount) &&
    (presentLegs w).all (fun l => laneCountOk l.count && decide (l.lanes.length = l.count)) &&
    decide (((presentLegs w).map fun l => l.count).sum ≤ 8) &&
    distinct ((presentLegs w).flatMap fun l => l.lanes) &&
    (presentLegs w).all (fun l => l.lanes.all fun i => decide (i < 8))

/-- The cable lanes of a list of numbers. -/
def laneIds (xs : List Nat) : List LaneId := xs.filterMap fun x => if h : x < 8 then some ⟨x, h⟩ else none

/-- The wiring record in force after a valid one is loaded (R1). -/
def installWiring (w : RawWiring) : Wiring :=
  { legCount := w.legCount
    legs := Tab.ofFn fun k => match (presentLegs w)[k.val]? with
      | some l => laneIds l.lanes
      | none => []
    cPolarity := w.cPolarity }

/-- Leg `k` is present (R1). -/
def Wiring.present (w : Wiring) (k : LegId) : Bool := decide (k.val < w.legCount)

/-- The lane count n_k, 0 for an absent leg (R1, R23). -/
def Wiring.laneCount (w : Wiring) (k : LegId) : Nat := (w.legs.get k).length

/-- The leg and leg-lane index of a cable lane, if it is wired (R3, R10). -/
def Wiring.place (w : Wiring) (i : LaneId) : Option (LegId × Nat) :=
  (Tab.indices 4).findSome? fun k =>
    if w.present k then ((w.legs.get k).findIdx? fun j => decide (j = i)).map fun j => (k, j) else none

/-! ## Where a leg lane lands -/

/-- The switch lane of leg lane `j` of a leg of `n` lanes with the given base, start and order (R8). -/
def landing (p : LegProfile) (n j : Nat) : Nat :=
  match p.order with
  | .linear => p.base.val + (p.start.val + j) % n
  | .interleaved => p.base.val + (p.start.val ^^^ j)

/-- A switch lane from a number. -/
def switchLaneOf (n : Nat) : Option SwitchLane := if h : n < 8 then some ⟨n, h⟩ else none

/-- The route table entry of cable lane `i` (R10). -/
def routeEntry (w : Wiring) (p : Profile) (i : LaneId) : RouteEntry :=
  match w.place i with
  | none => noRoute
  | some (k, j) =>
    let leg := p.legs.get k
    let sl := if leg.enabled then switchLaneOf (landing leg (w.laneCount k) j) else none
    { leg := some k
      index := Fin.ofNat 8 j
      switchLane := sl
      cPolarity := w.cPolarity.get i
      sPolarity := match sl with
        | some x => p.lanes.get x
        | none => normalPair }

/-- The route table (R10, R12). -/
def routeTable (w : Wiring) (p : Profile) : Tab 8 RouteEntry := Tab.ofFn (routeEntry w p)

/-- The inverse route table (R11). -/
def inverseTable (t : Tab 8 RouteEntry) : Tab 8 (Option LaneId) :=
  Tab.ofFn fun x => (Tab.indices 8).find? fun i => decide ((t.get i).switchLane = some x)

/-! ## Validation -/

/-- Two blocks of switch lanes share one. -/
def blocksOverlap (b n b' n' : Nat) : Bool := decide (b < b' + n' ∧ b' < b + n)

/-- The block of leg `k` shares a switch lane with that of a lower-numbered enabled leg (R13, check 5). -/
def overlapsLower (w : Wiring) (p : Profile) (k : LegId) : Bool :=
  (Tab.indices 4).any fun m =>
    decide (m < k) && (p.legs.get m).enabled &&
      blocksOverlap (p.legs.get m).base.val (w.laneCount m) (p.legs.get k).base.val (w.laneCount k)

/-- The first check of R13 that leg `k` fails, in the order of its table; `none` when it passes. A disabled leg is passed
without any check. -/
def checkLeg (w : Wiring) (p : Profile) (k : LegId) : Option ApplyOutcome :=
  let leg := p.legs.get k
  if leg.enabled = false then none
  else if w.present k = false then some .absentLeg
  else if leg.base.val % w.laneCount k ≠ 0 then some .misaligned
  else if 8 < leg.base.val + w.laneCount k then some .overrun
  else if w.laneCount k ≤ leg.start.val then some .badStart
  else if overlapsLower w p k then some .overlap
  else none

/-- The first leg of a profile that fails, with its reason (R13). -/
def validate (w : Wiring) (p : Profile) : Option (ApplyOutcome × LegId) :=
  (Tab.indices 4).findSome? fun k => (checkLeg w p k).map fun r => (r, k)

/-! ## Applying a profile -/

/-- The leg state of a leg after an apply or a load (R15, R18, R54): a leg that goes on keeps its state. -/
def legStateAfter (was now : Bool) (st : LegState) : LegState :=
  if now then (if was then st else .forming) else .disabled

/-- What the apply does to lane `i` in its own event (R17 to R20, R9). `before` is the part as the apply found it, with
its route; `s` holds the new profile and route. -/
def applyLane (before s : State) (i : LaneId) (l : Lane) : Lane :=
  match (s.route.get i).leg with
  | none => l
  | some k =>
    let was := (before.current.legs.get k).enabled
    let now := (s.current.legs.get k).enabled
    match was, now with
    | true, false => l.enterOff
    | false, true => l.enable (s.legs.get k) (s.legLines.get k) (s.route.get i).switchLane
    | false, false => l
    | true, true =>
      let moves := decide ((before.route.get i).switchLane ≠ (s.route.get i).switchLane)
      let changed := moves || decide ((before.route.get i).sPolarity ≠ (s.route.get i).sPolarity) ||
        decide ((before.current.legs.get k).order ≠ (s.current.legs.get k).order)
      { l with
        cases := l.cases ++ [⟨changed, moves⟩]
        sPair := if moves then none else l.sPair }

/-- A profile becomes current, and the route table and its inverse are recomputed (R12, R15, R16). -/
def State.setCurrent (s : State) (p : Profile) : State :=
  let t := routeTable s.wiring p
  { s with current := p, route := t, inverse := inverseTable t }

/-- Legs and lanes take what a new current profile gives them in the event itself (R15, R18, R20). -/
def State.takeProfile (before s : State) : State :=
  { s with
    lanes := s.lanes.mapIdx (applyLane before s)
    legState := s.legState.mapIdx fun k st =>
      legStateAfter (before.current.legs.get k).enabled (s.current.legs.get k).enabled st }

/-- APPLY_PROFILE at the Route Map Unit in RUNNING or IMAGE_FAULT, with its result (R14, R16, R156). -/
def State.apply (s : State) : State × ApplyOutcome :=
  match s.part with
  | .running =>
    match validate s.wiring s.pendingProfile with
    | some (r, k) => ({ s with applyOutcome := r, failingLeg := k }, r)
    | none =>
      (State.takeProfile s { s.setCurrent s.pendingProfile with applyOutcome := .done, failingLeg := 0 }, .done)
  | _ => ({ s with applyOutcome := .imageFault, failingLeg := 0 }, .imageFault)

/-- The lane takes the first of its waiting cases (R19, R20). A changed lane goes to DOWN, keeping its hold set, takes up
the pairs of its switch lane unless a later apply has moved it again (log 12), and goes on to TRAIN if nothing holds
it. An unchanged lane keeps everything. -/
def Lane.takeCase (cfg : LegConfig) (pair : Option SwitchLane) (l : Lane) : Lane :=
  match l.cases with
  | [] => l
  | c :: rest =>
    if c.changed then
      Lane.goOn cfg
        { l.enterDown with
          cases := rest
          sPair := if rest.any (fun c => c.moves) then none else pair }
    else { l with cases := rest }

end Sys2Proof.Machine
end

