-- ==== Sys2Proof/Machine/Codes.lean ====
section
/-! DEFINITION. The codes of every enumeration in the record space (12.7) and the packing of fields into bytes (R189,
R191). -/

namespace Sys2Proof.Machine

/-- 1 for yes, 0 for no (R189). -/
def flagCode (b : Bool) : Nat := if b then 1 else 0

/-- Lane state codes (12.7). -/
def LaneState.code (x : LaneState) : Nat :=
  match x with
  | .off => 0 | .down => 1 | .train => 2 | .ready => 3 | .carry => 4 | .wait => 5 | .fault => 6

/-- Segment state codes (12.7). -/
def SegState.code (x : SegState) : Nat :=
  match x with
  | .idle => 0 | .detect => 1 | .exchange => 2 | .done => 3

/-- Leg state codes (12.7). -/
def LegState.code (x : LegState) : Nat :=
  match x with
  | .disabled => 0 | .forming => 1 | .live => 2

/-- Part state codes (12.7). -/
def PartState.code (x : PartState) : Nat :=
  match x with
  | .loading => 0 | .running => 1 | .imageFault => 2

/-- Fault cause codes (12.7). -/
def FaultCause.code (x : FaultCause) : Nat :=
  match x with
  | .none => 0 | .check => 1 | .wiring => 2

/-- Failure reason codes (12.7). -/
def FailReason.code (x : FailReason) : Nat :=
  match x with
  | .none => 0 | .acquireTimeout => 1 | .lockLost => 2 | .replyTimeout => 3 | .tuneTimeout => 4
  | .noReading => 5 | .lowMargin => 6 | .partnerRefused => 7 | .partnerStack => 8

/-- Apply outcome codes (12.7). -/
def ApplyOutcome.code (x : ApplyOutcome) : Nat :=
  match x with
  | .none => 0 | .done => 1 | .absentLeg => 2 | .misaligned => 3 | .overrun => 4 | .badStart => 5
  | .overlap => 6 | .imageFault => 7

/-- Overall outcome codes (12.7): 16 + the apply outcome code for a reason. -/
def Overall.code (x : Overall) : Nat :=
  match x with
  | .none => 0 | .done => 1 | .partly => 2 | .refused => 3 | .busy => 4
  | .reason r => 16 + r.code

/-- Per-lane outcome codes (12.7). -/
def LaneOutcome.code (x : LaneOutcome) : Nat :=
  match x with
  | .none => 0 | .done => 1 | .notMapped => 2 | .busy => 3 | .atLimit => 4 | .stackFull => 5
  | .stackEmpty => 6 | .refused => 7

/-- Port last outcome codes (12.7). -/
def LastOutcome.code (x : LastOutcome) : Nat :=
  match x with
  | .ok => 0 | .partly => 1 | .refused => 2 | .busy => 3 | .unmapped => 4

/-- Reply outcome codes (12.7). -/
def ReplyOutcome.code (x : ReplyOutcome) : Nat :=
  match x with
  | .none => 0 | .applied => 1 | .atLimit => 2 | .stackFull => 3 | .stackEmpty => 4 | .badRequest => 5

/-- Tap codes (12.7). -/
def Tap.code (x : Tap) : Nat :=
  match x with
  | .pre => 0 | .post1 => 1 | .post2 => 2

/-- A direction as a bit: 0 is -1, 1 is +1 (R192, 12.5). -/
def directionCode (x : Direction) : Nat :=
  match x with
  | .minus => 0 | .plus => 1

/-- Request kind codes (12.7). -/
def Request.kindCode (x : Request) : Nat :=
  match x with
  | .step _ _ => 1 | .trial _ _ => 2 | .keep => 3 | .back => 4 | .preset _ => 5

/-- Scan origin codes (12.7). -/
def originCode (x : Option Origin) : Nat :=
  match x with
  | none => 0 | some .search => 1 | some .watch => 2 | some .action => 3

/-- Search phase codes (12.7). -/
def Phase.code (x : Phase) : Nat :=
  match x with
  | .none => 0 | .opening => 1 | .reference => 2 | .trying => 3 | .measuring => 4 | .keeping => 5
  | .backing => 6 | .accepted => 7 | .halted => 8

/-- A figure of merit; NO READING is 255 (R111, R189). -/
def fomCode (x : Fom) : Nat :=
  match x with
  | none => 255 | some f => f

/-- A polarity bit: 1 is INVERTED (12.3). -/
def polarityCode (x : Polarity) : Nat :=
  match x with
  | .normal => 0 | .inverted => 1

/-- A lane order byte (12.3). -/
def orderCode (x : LaneOrder) : Nat :=
  match x with
  | .linear => 0 | .interleaved => 1

/-- A side byte: 0 NEAR (12.5). -/
def sideCode (x : ViewSide) : Nat :=
  match x with
  | .near => 0 | .far => 1

/-- A byte of a number. -/
def byte (n : Nat) : Byte := BitVec.ofNat 8 n

/-- A two-byte number, low byte first (R189). -/
def twoBytes (n : Nat) : List Byte := [byte n, byte (n / 256)]

/-- A number of a table entry or NONE, which is 0xFF in a byte field (R189). -/
def optByte {n : Nat} (x : Option (Fin n)) : Nat :=
  match x with
  | none => 255 | some v => v.val

/-- Fields of the given widths packed from low bits to high (R191). The bits of a byte above its last field are 0 (log 37). -/
def packBits : List (Nat × Nat) → Nat
  | [] => 0
  | (w, v) :: rest => v % 2 ^ w + 2 ^ w * packBits rest

/-- The bytes of a packed number, lowest first (R191). -/
def bytesOf : Nat → Nat → List Byte
  | 0, _ => []
  | k + 1, n => byte n :: bytesOf k (n / 256)

/-- A signed number in `w` bits of two's complement (R189). -/
def twosComplement (w : Nat) (x : Int) : Nat := (x % (2 ^ w : Nat)).toNat

/-- The fields of a setting word (R191). -/
def Setting.word (x : Setting) : List (Nat × Nat) :=
  [(4, x.pre.natAbs), (5, (x.main - 24).toNat), (5, x.post1.natAbs), (4, twosComplement 4 x.post2)]

/-- The fields of a stack position; all zero bits where no entry is held (R78, R191). -/
def stackWord (st : List Setting) (n : Nat) : List (Nat × Nat) :=
  match st[n]? with
  | some x => x.word
  | none => [(18, 0)]

/-- The fields of an echo in the tuning record (R192, last sentence). -/
def Echo.fields (e : Echo) : List (Nat × Nat) :=
  [(4, e.pre.toNat), (6, e.main.toNat), (5, e.post1.toNat), (4, e.post2.toNat), (4, e.depth.toNat)]

/-- The argument of a request in the tuning record: tap code and direction of STEP and TRY, preset code of PRESET, 0
otherwise (R191). -/
def Request.argument (r : Request) : Nat :=
  match r with
  | .step t d => t.code + 4 * directionCode d
  | .trial t d => t.code + 4 * directionCode d
  | .preset p => p.val
  | _ => 0

/-- The 256 bits of one side's section of a tuning record (R191). Bits 94-95, 142-143, 220-223 and 238-239 carry no field
and are shown as 0, which R191 and R189 say of whole empty offsets only (log 37, DESIGN CHOICE, unsafe). -/
def Half.tuningFields (h : Half) : List (Nat × Nat) :=
  (4, h.tx.stack.length) :: h.tx.current.word ++
    (stackWord h.tx.stack 0 ++ stackWord h.tx.stack 1 ++ stackWord h.tx.stack 2 ++ stackWord h.tx.stack 3) ++
  (2, 0) ::
  (match h.req.outstanding with
    | some (r, tag) => [(3, r.kindCode), (3, r.argument), (2, tag.val)]
    | none => [(3, 0), (3, 0), (2, 0)]) ++
  (2, h.req.nextTag.val) ::
  (match h.req.lastReply with
    | some (tag, o) => [(2, tag.val), (3, o.code)]
    | none => [(2, 0), (3, 0)]) ++
  (match h.resp.lastTag with
    | some tag => [(2, tag.val), (3, h.resp.outcome.code)]
    | none => [(2, 0), (3, 0)]) ++
  [(1, flagCode h.seg.synchronised), (1, flagCode h.seg.ownReady), (1, flagCode h.seg.partnerReady)] ++
  h.seg.echo.fields ++
  (2, 0) ::
  [(2, originCode (h.scan.inFlight.map fun sc => sc.origin)), (2, originCode h.scan.last.origin)] ++
  [(5, edgeValue h.scan.last.edges 0), (5, edgeValue h.scan.last.edges 1), (5, edgeValue h.scan.last.edges 2),
    (5, edgeValue h.scan.last.edges 3), (5, edgeValue h.scan.last.edges 4), (5, edgeValue h.scan.last.edges 5)] ++
  [(6, height h.scan.last.edges 0), (6, height h.scan.last.edges 1), (6, height h.scan.last.edges 2)] ++
  [(8, fomCode h.scan.last.fom), (16, h.scan.count), (4, 0)] ++
  [(4, h.search.phase.code), (3, h.search.pass), (2, h.search.tap.code), (1, directionCode h.search.dir),
    (2, h.search.unordered), (1, flagCode h.search.tapMoved), (1, flagCode h.search.passMoved), (2, 0)] ++
  [(8, fomCode h.search.reference), (8, fomCode h.search.trialReading)]

end Sys2Proof.Machine
end

