-- ==== Sys2Proof/Machine/Records.lean ====
section
/-! DEFINITION. The records of the record space (12.3 to 12.5): each record as its offsets in order, every offset with
its field group and the byte it shows (R190). -/

namespace Sys2Proof.Machine

/-- The field groups (R174, R176, 12.3). `empty` is the group of the offsets that carry no field (R167). -/
inductive FieldGroup where
  | ident | pstate | hysteresis | watchParams
  | legState | threshold | retrain | presets | busy
  | route | lane | segment | watch | counters
  | setting | exchange | scan | search
  | profile | applyOutcome
  | readEntries | writeEntries | actionEntries | farEntry
  | request | outcome | status | counts | bitmap | mask
  | empty
  deriving DecidableEq, Repr

/-- The records a view can map (R169, R170). The lane and tuning records are those of a cable lane. -/
inductive Record where
  | part
  | leg (k : LegId)
  | lane (i : LaneId)
  | tuning (i : LaneId)
  | profile
  | policyGroups
  | policyActions
  | action
  | status
  | change
  deriving DecidableEq, Repr

/-- One offset of a record: its field group and its byte. -/
abbrev FieldByte := FieldGroup × Byte

/-- Bytes of one field group. -/
def inGroup (g : FieldGroup) (bs : List Byte) : List FieldByte := bs.map fun b => (g, b)

/-- Offsets that carry no field (R189). -/
def blank (n : Nat) : List FieldByte := List.replicate n (.empty, 0)

/-- The part block (12.3). -/
def partRecord (s : State) : List FieldByte :=
  inGroup .ident (twoBytes Config.vendorCode.toNat ++ twoBytes Config.partCode.toNat ++ s.serial.list ++
    [s.lengthCode]) ++
  inGroup .pstate [byte s.part.code, byte s.faultCause.code, byte (flagCode s.freeze)] ++
  inGroup .hysteresis [byte s.hysteresis] ++
  inGroup .watchParams [byte s.pWatch, byte s.dDrop, byte s.kAlarm]

/-- The bits of a busy mask (12.3). -/
def BusyMask.bits (m : BusyMask) : Nat :=
  packBits [(1, flagCode m.leg), (1, flagCode m.lane), (1, flagCode m.tune), (1, flagCode m.action)]

/-- The record of leg `k` (12.3). -/
def legRecord (s : State) (k : LegId) : List FieldByte :=
  inGroup .legState [byte (s.legState.get k).code, byte (s.wiring.laneCount k)] ++
  inGroup .threshold [byte (s.legs.get k).threshold, byte (flagCode (s.legs.get k).lowMargin)] ++
  inGroup .retrain [byte (flagCode (s.legs.get k).autoRetrain)] ++
  inGroup .presets [byte (s.legs.get k).sTx.val, byte (s.legs.get k).cTx.val, byte (s.legs.get k).sPartner.val,
    byte (s.legs.get k).cPartner.val] ++
  inGroup .busy [byte (s.busy.get k).bits]

/-- The polarity bits of a route entry (12.4). -/
def RouteEntry.polarityBits (r : RouteEntry) : Nat :=
  packBits [(1, polarityCode r.cPolarity.rx), (1, polarityCode r.cPolarity.tx), (1, polarityCode r.sPolarity.rx),
    (1, polarityCode r.sPolarity.tx)]

/-- The bits of a hold set (12.4). -/
def HoldSet.bits (h : HoldSet) : Nat :=
  packBits [(1, flagCode h.switch), (1, flagCode h.leg), (1, flagCode h.line)]

/-- One side's section of a lane record (12.4). -/
def laneSection (h : Half) : List FieldByte :=
  inGroup .segment [byte h.seg.state.code, byte h.seg.reason.code, byte h.seg.own.val, byte (optByte h.seg.partner),
    byte (packBits [(1, flagCode h.seg.polaritySuspect), (1, flagCode h.seg.marginal)]), byte (fomCode h.seg.finalFom)] ++
  inGroup .watch [byte (fomCode h.watch.baseline), byte (flagCode h.watch.alarm), byte h.watch.low] ++
  inGroup .counters (twoBytes h.frameErrors ++ twoBytes h.watchAlarms) ++ blank 3

/-- The side that NEAR or FAR names through a port: NEAR is S in the full view and C in a leg view (R171). -/
def sideOf (p : PortId) (v : ViewSide) : Side :=
  match v with
  | .near => if p = 0 then .S else .C
  | .far => if p = 0 then .C else .S

/-- The lane record of cable lane `i` through port `p` (12.4, R171). -/
def laneRecord (s : State) (p : PortId) (i : LaneId) : List FieldByte :=
  let l := s.lane i
  let r := s.route.get i
  inGroup .route [byte i.val, byte (optByte r.leg), byte r.index.val, byte (optByte r.switchLane), byte r.polarityBits] ++
  inGroup .lane [byte l.state.code, byte l.hold.bits, byte l.fc] ++
  inGroup .counters (twoBytes l.trainings ++ twoBytes l.failures ++ twoBytes l.drops ++ twoBytes l.retrains) ++
  laneSection (l.half (sideOf p .near)) ++ laneSection (l.half (sideOf p .far))

/-- One side's section of a tuning record: 32 bytes in the four groups of R191. -/
def tuningSection (h : Half) : List FieldByte :=
  let bs := bytesOf 32 (packBits h.tuningFields)
  inGroup .setting (bs.take 12) ++ inGroup .exchange ((bs.drop 12).take 6) ++
    inGroup .scan ((bs.drop 18).take 10) ++ inGroup .search (bs.drop 28)

/-- The tuning record of cable lane `i` through port `p` (R191). -/
def tuningRecord (s : State) (p : PortId) (i : LaneId) : List FieldByte :=
  tuningSection ((s.lane i).half (sideOf p .near)) ++ tuningSection ((s.lane i).half (sideOf p .far))

/-- The pending profile with the apply outcome (12.3). -/
def profileRecord (s : State) : List FieldByte :=
  inGroup .profile
    ((Tab.indices 4).flatMap fun k =>
      let l := s.pendingProfile.legs.get k
      [byte (flagCode l.enabled), byte l.base.val, byte l.start.val, byte (orderCode l.order)]) ++
  inGroup .profile
    ((Tab.indices 8).map fun x =>
      let pp := s.pendingProfile.lanes.get x
      byte (packBits [(1, polarityCode pp.rx), (1, polarityCode pp.tx)])) ++
  inGroup .applyOutcome [byte s.applyOutcome.code, byte s.failingLeg.val]

/-- One byte per bit of a word: 0 REFUSE, 1 ALLOW (12.3, R189). -/
def entryBytes {n : Nat} (x : BitVec n) : List Byte := (List.range n).map fun m => byte (flagCode (x.getLsbD m))

/-- Block 0x21 of the policy table (12.3). -/
def policyGroupsRecord (s : State) : List FieldByte :=
  inGroup .readEntries (entryBytes s.policy.read) ++ blank 12 ++ inGroup .writeEntries (entryBytes s.policy.write)

/-- Block 0x22 of the policy table (12.3). -/
def policyActionsRecord (s : State) : List FieldByte :=
  inGroup .actionEntries (entryBytes s.policy.actions) ++ blank 2 ++ inGroup .farEntry [byte (flagCode s.policy.far)]

/-- The action block of port `p` (12.5). -/
def actionRecord (s : State) (p : PortId) : List FieldByte :=
  let a := (s.ports.get p).action
  inGroup .request [a.code, byte (sideCode a.args.side), a.args.mask, byte a.args.tap.val,
    byte (directionCode a.args.direction), byte a.args.preset.val] ++ blank 2 ++
  inGroup .outcome [byte a.overall.code] ++ blank 7 ++
  inGroup .outcome (a.perLane.list.map fun o => byte o.code)

/-- The discarded address; NONE is 0xFFFF (R189). -/
def discardedCode (x : Option Nat) : Nat :=
  match x with
  | none => 65535
  | some n => n

/-- The port status of port `p` (12.5). -/
def statusRecord (s : State) (p : PortId) : List FieldByte :=
  let st := (s.ports.get p).status
  inGroup .status (byte st.last.code :: twoBytes (discardedCode st.discarded)) ++ blank 1 ++
  inGroup .counts [byte st.refused, byte st.busy, byte st.unmapped]

/-- The three bytes of a word of twenty flags (12.5). -/
def flagBytes (x : BitVec 20) : List Byte := [byte x.toNat, byte (x.toNat / 256), byte (x.toNat / 65536)]

/-- The change block of port `p` (12.5). -/
def changeRecord (s : State) (p : PortId) : List FieldByte :=
  inGroup .bitmap (flagBytes (s.ports.get p).bitmap) ++ blank 1 ++ inGroup .mask (flagBytes (s.ports.get p).mask)

/-- A record through port `p`, without the empty offsets that follow its last field. -/
def record (s : State) (p : PortId) (r : Record) : List FieldByte :=
  match r with
  | .part => partRecord s
  | .leg k => legRecord s k
  | .lane i => laneRecord s p i
  | .tuning i => tuningRecord s p i
  | .profile => profileRecord s
  | .policyGroups => policyGroupsRecord s
  | .policyActions => policyActionsRecord s
  | .action => actionRecord s p
  | .status => statusRecord s p
  | .change => changeRecord s p

/-- The field group that holds an offset of a record (R167, R190). -/
def groupAt (s : State) (p : PortId) (r : Record) (off : Nat) : FieldGroup :=
  ((record s p r)[off]?.getD (.empty, 0)).1

end Sys2Proof.Machine
end

