-- ==== Sys2Proof/Machine/Views.lean ====
section
/-! DEFINITION. Views (section 8.4), the Access Policy Unit (chapter 9) and what a read snapshot captures (R164). -/

namespace Sys2Proof.Machine

/-! ## Views -/

/-- Port `p`'s own state. -/
def State.port (s : State) (p : PortId) : Port := s.ports.get p

/-- Replace port `p`'s own state. -/
def State.setPort (s : State) (p : PortId) (x : Port) : State := { s with ports := s.ports.set p x }

/-- The leg that a leg port acts for; none for M0 (R174). -/
def portLeg (p : PortId) : Option LegId := if h : 0 < p.val then some ⟨p.val - 1, by omega⟩ else none

/-- The port of leg `k`, M(k+1). -/
def legPort (k : LegId) : PortId := ⟨k.val + 1, by omega⟩

/-- The cable lane behind lane number `j` of port `p`'s view (R21): the inverse route table in the full view; leg lane `j`
in a leg view, while the leg is enabled and has it. -/
def viewLane (s : State) (p : PortId) (j : Fin 8) : Option LaneId :=
  match portLeg p with
  | none => s.inverse.get j
  | some k => if (s.current.legs.get k).enabled then (s.wiring.legs.get k)[j.val]? else none

/-- A lane number from a block offset. -/
def laneNumber (n : Nat) : Fin 8 := Fin.ofNat 8 n

/-- The record that a block of port `p`'s view maps now, if any (R169, R170, R172). -/
def resolve (s : State) (p : PortId) (block : Nat) : Option Record :=
  if block = 0x00 then some .part
  else if 0x08 ≤ block ∧ block < 0x10 then (viewLane s p (laneNumber (block - 0x08))).map .lane
  else if 0x10 ≤ block ∧ block < 0x18 then (viewLane s p (laneNumber (block - 0x10))).map .tuning
  else if block = 0x30 then some .action
  else if block = 0x31 then some .status
  else if block = 0x32 then some .change
  else
    match portLeg p with
    | none =>
      if block = 0x01 then some (.leg 0)
      else if block = 0x02 then some (.leg 1)
      else if block = 0x03 then some (.leg 2)
      else if block = 0x04 then some (.leg 3)
      else if block = 0x20 then some .profile
      else if block = 0x21 then some .policyGroups
      else if block = 0x22 then some .policyActions
      else none
    | some k => if block = 0x01 then some (.leg k) else none

/-! ## The policy table -/

/-- The position of a field group in the policy table (12.3: leg STATE to BUSY, lane ROUTE to COUNTERS, tuning SETTING to
SEARCH, port-own REQUEST to MASK); none for the groups of no class. -/
def FieldGroup.position (g : FieldGroup) : Option Nat :=
  match g with
  | .legState => some 0 | .threshold => some 1 | .retrain => some 2 | .presets => some 3 | .busy => some 4
  | .route => some 5 | .lane => some 6 | .segment => some 7 | .watch => some 8 | .counters => some 9
  | .setting => some 10 | .exchange => some 11 | .scan => some 12 | .search => some 13
  | .request => some 14 | .outcome => some 15 | .status => some 16 | .counts => some 17 | .bitmap => some 18
  | .mask => some 19
  | _ => none

/-- The read-only groups (R174, 12.3, R167). -/
def FieldGroup.readOnly (g : FieldGroup) : Bool :=
  match g with
  | .ident | .pstate | .legState | .route | .lane | .segment | .watch | .counters | .setting | .exchange | .scan
  | .search | .applyOutcome | .outcome | .status | .empty => true
  | _ => false

/-- The configurable positions among the write entries: THRESHOLD, RETRAIN, PRESETS, REQUEST, COUNTS, BITMAP and MASK
(R176). The others are fixed and read REFUSE. -/
def writeConfigurable : BitVec 20 := 0b11100100000000001110#20

/-- The configurable positions among the action entries: every code but APPLY_PROFILE and SOFT_RESET (R176). -/
def actionConfigurable : BitVec 14 := 0b00111111111111#14

/-- A policy table with its fixed positions at REFUSE (R176). -/
def PolicyTable.fixed (t : PolicyTable) : PolicyTable :=
  { t with write := t.write &&& writeConfigurable, actions := t.actions &&& actionConfigurable }

/-- An answer of the Access Policy Unit (R174). -/
inductive Answer where
  | allow | refused | busy
  deriving DecidableEq, Repr

/-- The port's writer may read a field group (R175, R177). -/
def mayRead (s : State) (p : PortId) (g : FieldGroup) : Bool :=
  if p = 0 then true
  else
    match g.position with
    | some n => s.policy.read.getLsbD n
    | none => true

/-- The class of a record is closed by the writer's busy mask (R177, R178). An empty offset of such a record counts with
its class (log 16). -/
def classBusy (s : State) (p : PortId) (r : Record) : Bool :=
  match portLeg p with
  | none => false
  | some k =>
    match r with
    | .leg _ => (s.busy.get k).leg
    | .lane _ => (s.busy.get k).lane
    | .tuning _ => (s.busy.get k).tune
    | _ => false

/-- A fixed entry refuses the write (R175). A LEG writer reaches the part block but never writes it. -/
def fixedRefuses (p : PortId) (r : Record) (g : FieldGroup) : Bool :=
  g.readOnly || (decide (p ≠ 0) && (decide (g = .busy) || decide (r = .part)))

/-- The configurable write entry of the group, for a LEG writer (R177, step 3). -/
def mayWrite (s : State) (p : PortId) (g : FieldGroup) : Bool :=
  if p = 0 then true
  else
    match g.position with
    | some n => s.policy.write.getLsbD n
    | none => false

/-- The Access Policy Unit's answer to a written group (R177). -/
def judgeWrite (s : State) (p : PortId) (r : Record) (g : FieldGroup) : Answer :=
  if classBusy s p r then .busy
  else if fixedRefuses p r g then .refused
  else if mayWrite s p g then .allow
  else .refused

/-- Bit position of an action code in the action entries. -/
def actionEntry (code : Nat) : Nat := code - 1

/-- The Access Policy Unit's answer to an action whose code names one (R179). -/
def judgeAction (s : State) (p : PortId) (code : Nat) : Answer :=
  match portLeg p with
  | none => .allow
  | some k =>
    if s.policy.actions.getLsbD (actionEntry code) = false ∨ code = 13 ∨ code = 14 then .refused
    else if (s.busy.get k).action then .busy
    else .allow

/-! ## What a view shows -/

/-- The offsets of the part block that a leg view shows: 0x00 to 0x17 (R170, 12.2). -/
def shownPart : Nat := 0x18

/-- The record as port `p` sees it: the leg subset of the part block, and 0x00 in every byte of a group refused to it
(R164, R170, R177). The flag says that the byte's group was refused. -/
def viewBytes (s : State) (p : PortId) (r : Record) : List (Byte × Bool) :=
  let shown := if p ≠ 0 ∧ r = .part then (record s p r).take shownPart else record s p r
  shown.map fun x => if mayRead s p x.1 then (x.2, false) else (0, true)

/-- The bytes of a block as port `p`'s view shows them, without trailing empty offsets; none for an unmapped block. -/
def blockContent (s : State) (p : PortId) (block : Nat) : List Byte :=
  match resolve s p block with
  | some r => (viewBytes s p r).map Prod.fst
  | none => []

/-- Exactly 64 entries: the list, then the filler. -/
def padTo64 {α : Type} (x : α) (xs : List α) : List α := (xs ++ List.replicate (64 - xs.length) x).take 64

/-- The snapshot a read part captures (R164): 64 bytes; an unmapped block gives 0x00 throughout (R172). -/
def capture (s : State) (p : PortId) (block : Nat) : Snapshot :=
  let xs := match resolve s p block with
    | some r => viewBytes s p r
    | none => []
  ⟨padTo64 0 (xs.map Prod.fst), padTo64 false (xs.map Prod.snd)⟩

/-- The port acknowledges its address (R161). -/
def acknowledges (s : State) (p : PortId) : Bool :=
  match s.part with
  | .loading => false
  | .imageFault => decide (p = 0)
  | .running =>
    match portLeg p with
    | none => true
    | some k => s.wiring.present k

end Sys2Proof.Machine
end

