-- ==== Sys2Proof/Machine/Track.lean ====
section
/-! DEFINITION. The Change Tracker (chapter 10): which change groups a view maps, what each shows, and the marks an event
makes. -/

namespace Sys2Proof.Machine

/-- The twenty change groups by bit: 0 PART, 1 LEG, 2 to 9 LANE, 10 to 17 TUNE, 18 ACTION, 19 STATUS (12.5). -/
abbrev ChangeGroup := Fin 20

/-- The group is mapped in port `p`'s view (R182). -/
def groupMapped (s : State) (p : PortId) (g : ChangeGroup) : Bool :=
  if 2 ≤ g.val ∧ g.val < 10 then (viewLane s p (laneNumber (g.val - 2))).isSome
  else if 10 ≤ g.val ∧ g.val < 18 then (viewLane s p (laneNumber (g.val - 10))).isSome
  else true

/-- The part block without its vendor and part codes, which never change (R188). -/
def partContent (s : State) (p : PortId) : List Byte := ((viewBytes s p .part).map Prod.fst).drop 4

/-- The content of a group as port `p`'s view shows it (R183, table of section 10.1). -/
def groupContent (s : State) (p : PortId) (g : ChangeGroup) : List Byte :=
  if g.val = 0 then
    partContent s p ++ blockContent s p 0x20 ++ blockContent s p 0x21 ++ blockContent s p 0x22
  else if g.val = 1 then
    blockContent s p 0x01 ++ blockContent s p 0x02 ++ blockContent s p 0x03 ++ blockContent s p 0x04
  else if g.val < 10 then blockContent s p (0x08 + (g.val - 2))
  else if g.val < 18 then blockContent s p (0x10 + (g.val - 10))
  else if g.val = 18 then blockContent s p 0x30
  else blockContent s p 0x31

/-- The flags for which a test holds. -/
def flagsOf (f : ChangeGroup → Bool) : BitVec 20 :=
  BitVec.ofNat 20 (packBits ((Tab.indices 20).map fun g => (1, flagCode (f g))))

/-- The flags of the groups port `p`'s view maps. -/
def mappedFlags (s : State) (p : PortId) : BitVec 20 := flagsOf (groupMapped s p)

/-- The flags of the groups whose content as port `p`'s view shows it differs between two states. -/
def changedFlags (a b : State) (p : PortId) : BitVec 20 :=
  flagsOf fun g => decide (groupContent a p g ≠ groupContent b p g)

/-- Mark what an event from `before` to `after` changed, at every port, and clear the flags of unmapped groups (R182,
R183). For the port whose own write stop it is, `own` gives that port and the state right after its groups were
stored: a group is marked for it only if the part has changed it since (log 19). -/
def track (before : State) (own : Option (PortId × State)) (after : State) : State :=
  { after with
    ports := after.ports.mapIdx fun p x =>
      let changed := changedFlags before after p
      let changed := match own with
        | some (q, mid) => if p = q then changed &&& changedFlags mid after p else changed
        | none => changed
      { x with bitmap := (x.bitmap ||| changed) &&& mappedFlags after p } }

/-- Set flags in a port's bitmap. -/
def State.markFlags (s : State) (p : PortId) (flags : BitVec 20) : State :=
  s.setPort p { s.port p with bitmap := (s.port p).bitmap ||| flags }

/-- The flags of every LANE and TUNE group. -/
def laneAndTuneFlags : BitVec 20 := flagsOf fun g => decide (2 ≤ g.val ∧ g.val < 18)

/-- The flag of the LEG group. -/
def legFlag : BitVec 20 := 2#20

/-- The marks of a valid apply at the port of leg `k` that do not depend on whether bytes change (R183, "Applies"): the
mapped LANE and TUNE groups if it changed the view's mapping, and LEG if it changed the leg's state (log 18). -/
def legApplyFlags (before s : State) (k : LegId) : BitVec 20 :=
  (if (before.current.legs.get k).enabled = (s.current.legs.get k).enabled then 0#20
    else laneAndTuneFlags &&& mappedFlags s (legPort k)) |||
  (if before.legState.get k = s.legState.get k then 0#20 else legFlag)

/-- The marks of a valid apply that do not depend on whether bytes change (R183, "Applies"): at M0 every mapped LANE and
TUNE group and PART (log 18), and at each leg's port those of `legApplyFlags`. -/
def markApply (before s : State) : State :=
  let s := s.markFlags 0 ((laneAndTuneFlags &&& mappedFlags s 0) ||| 1#20)
  (Tab.indices 4).foldl (fun s k => s.markFlags (legPort k) (legApplyFlags before s k)) s

/-- An engine event: its effect, tracked. -/
def engineEvent (s s' : State) : State := track s none s'

end Sys2Proof.Machine
end

