-- ==== Sys2Proof/Machine/Actions.lean ====
section
/-! DEFINITION. The Action Unit (chapter 7): the whole-action tests, the operation of each code on one lane, the part-wide
actions, and the outcome fields. -/

namespace Sys2Proof.Machine

/-! ## Codes -/

/-- The fourteen actions. -/
inductive Action where
  | retrain | hold | release | measure | save | restore | discard | step | preset | clearCounters
  | freeze | thaw | applyProfile | softReset
  deriving DecidableEq, Repr

/-- The action a code names (12.7); none for NONE and the reserved codes. -/
def actionOfCode (c : Nat) : Option Action :=
  match c with
  | 1 => some .retrain | 2 => some .hold | 3 => some .release | 4 => some .measure | 5 => some .save
  | 6 => some .restore | 7 => some .discard | 8 => some .step | 9 => some .preset | 10 => some .clearCounters
  | 11 => some .freeze | 12 => some .thaw | 13 => some .applyProfile | 14 => some .softReset
  | _ => none

/-- The code of an action (12.7). -/
def Action.code (a : Action) : Nat :=
  match a with
  | .retrain => 1 | .hold => 2 | .release => 3 | .measure => 4 | .save => 5 | .restore => 6 | .discard => 7
  | .step => 8 | .preset => 9 | .clearCounters => 10 | .freeze => 11 | .thaw => 12 | .applyProfile => 13
  | .softReset => 14

/-- The codes that use the lane mask (R147). -/
def Action.usesMask (a : Action) : Bool :=
  match a with
  | .freeze | .thaw | .applyProfile | .softReset => false
  | _ => true

/-- The argument test of R145 (test 4, R71). -/
def argumentsOk (a : Action) (args : ActionArgs) : Bool :=
  match a with
  | .step => (tapOfCode args.tap.val).isSome
  | .preset => (presetOfCode args.preset.val).isSome
  | _ => true

/-- What the whole-action tests of R145 say: passed, or the overall outcome of the first test failed. -/
inductive ActionTest where
  | passed (a : Action)
  | refused
  | busy
  deriving DecidableEq, Repr

/-- The whole-action tests, in the order of R145. -/
def actionTest (s : State) (p : PortId) (code : Nat) (args : ActionArgs) : ActionTest :=
  match actionOfCode code with
  | none => .refused
  | some a =>
    match judgeAction s p code with
    | .refused => .refused
    | .busy => .busy
    | .allow => if argumentsOk a args then .passed a else .refused

/-! ## Operations on one lane -/

/-- The per-lane outcome of a setting operation's outcome (R72). -/
def settingOutcome (o : ReplyOutcome) : LaneOutcome :=
  match o with
  | .applied => .done
  | .atLimit => .atLimit
  | .stackFull => .stackFull
  | .stackEmpty => .stackEmpty
  | _ => .refused

/-- RETRAIN on one lane (R149, R50). -/
def retrainLane (s : State) (i : LaneId) : State × LaneOutcome :=
  match (s.lane i).state with
  | .off => (s, .notMapped)
  | .down => (s, .busy)
  | _ => (s.moveLane i fun l => Lane.trainFresh (s.legConfig i) { l with fc := 0 }, .done)

/-- The hold set with the writer's member present or not: SWITCH for M0, LEG for a leg port (R51, R150). -/
def HoldSet.withMember (h : HoldSet) (p : PortId) (present : Bool) : HoldSet :=
  if p = 0 then { h with switch := present } else { h with leg := present }

/-- A hold member is added to a lane that is not OFF: the lane enters DOWN unless it is there (R51). -/
def Lane.addHold (l : Lane) (hold : HoldSet) : Lane :=
  if l.state = .down then { l with hold := hold } else { l.enterDown with hold := hold }

/-- HOLD on one lane (R150). -/
def holdLane (s : State) (p : PortId) (i : LaneId) : State × LaneOutcome :=
  match (s.lane i).state with
  | .off => (s, .notMapped)
  | _ => (s.moveLane i fun l => l.addHold (l.hold.withMember p true), .done)

/-- RELEASE on one lane (R151, R52): only a lane in DOWN can have members to lose. -/
def releaseLane (s : State) (p : PortId) (i : LaneId) : State × LaneOutcome :=
  match (s.lane i).state with
  | .off => (s, .notMapped)
  | _ =>
    (s.moveLane i fun l => Lane.goOn (s.legConfig i) { l with hold := l.hold.withMember p false }, .done)

/-- MEASURE on one lane (R154). The reading of an ACTION scan is handed to no engine, so nothing else follows. -/
def measureLane (s : State) (i : LaneId) (d : Side) : State × LaneOutcome :=
  match (s.lane i).state with
  | .off => (s, .notMapped)
  | .down => (s, .busy)
  | _ =>
    match ((s.lane i).half d).scan.inFlight with
    | some _ => (s, .busy)
    | none =>
      (s.setLane i ((s.lane i).setHalf d (((s.lane i).half d).startScan (s.ctx i d) .action).half), .done)

/-- The tests of R153 that a setting action on one lane fails, in order; they are made when the action is taken (R73). -/
def settingTest (s : State) (p : PortId) (i : LaneId) (v : ViewSide) : Option LaneOutcome :=
  if (s.lane i).state = .off then some .notMapped
  else if p ≠ 0 ∧ v = .far ∧ s.policy.far = false then some .refused
  else if ((s.lane i).half (sideOf p v)).seg.state = .exchange then some .busy
  else none

/-- A setting operation at the Transmit Setting Unit of one side of a lane (R72, R153, test 4). -/
def settingApply (s : State) (p : PortId) (i : LaneId) (v : ViewSide) (op : TxUnit → TxUnit × ReplyOutcome) :
    State × LaneOutcome :=
  let h := (s.lane i).half (sideOf p v)
  (s.setLane i ((s.lane i).setHalf (sideOf p v) { h with tx := (op h.tx).1 }), settingOutcome (op h.tx).2)

/-- A setting action on one lane, tested and taken in one (R153). -/
def settingLane (s : State) (p : PortId) (i : LaneId) (v : ViewSide) (op : TxUnit → TxUnit × ReplyOutcome) :
    State × LaneOutcome :=
  match settingTest s p i v with
  | some o => (s, o)
  | none => settingApply s p i v op

/-- The lane counters and scan counts zeroed (R152). -/
def Lane.clearCounters (l : Lane) : Lane :=
  Lane.mapHalves { l with trainings := 0, failures := 0, drops := 0, retrains := 0 }
    fun h => { h with frameErrors := 0, watchAlarms := 0, scan := { h.scan with count := 0 } }

/-- CLEAR_COUNTERS on one lane (R152). -/
def clearLane (s : State) (i : LaneId) : State × LaneOutcome :=
  match (s.lane i).state with
  | .off => (s, .notMapped)
  | _ => (s.setLane i (s.lane i).clearCounters, .done)

/-- A step as an action gives it; a code that names no tap has already failed the argument test. -/
def stepOp (args : ActionArgs) (u : TxUnit) : TxUnit × ReplyOutcome :=
  match tapOfCode args.tap.val with
  | some t => u.step t args.direction
  | none => (u, .badRequest)

/-- A preset as an action gives it; a code that names no preset has already failed the argument test. -/
def presetOp (args : ActionArgs) (u : TxUnit) : TxUnit × ReplyOutcome :=
  match presetOfCode args.preset.val with
  | some n => u.preset n
  | none => (u, .badRequest)

/-- One lane takes its operation of an action written through port `p` (R148), with its per-lane outcome. -/
def laneOperation (s : State) (p : PortId) (a : Action) (args : ActionArgs) (i : LaneId) : State × LaneOutcome :=
  match a with
  | .retrain => retrainLane s i
  | .hold => holdLane s p i
  | .release => releaseLane s p i
  | .measure => measureLane s i (sideOf p args.side)
  | .save => settingLane s p i args.side TxUnit.save
  | .restore => settingLane s p i args.side TxUnit.back
  | .discard => settingLane s p i args.side TxUnit.keep
  | .step => settingLane s p i args.side (stepOp args)
  | .preset => settingLane s p i args.side (presetOp args)
  | .clearCounters => clearLane s i
  | _ => (s, .none)

/-- The operation of a setting action at a Transmit Setting Unit (R153). -/
def settingOp (a : Action) (args : ActionArgs) : Option (TxUnit → TxUnit × ReplyOutcome) :=
  match a with
  | .save => some TxUnit.save
  | .restore => some TxUnit.back
  | .discard => some TxUnit.keep
  | .step => some (stepOp args)
  | .preset => some (presetOp args)
  | _ => none

/-- The outcome that a named lane has already when the action is taken, before an operation is handed to it: that of the
tests of a setting action (R73, R153). -/
def earlyOutcome (s : State) (p : PortId) (a : Action) (args : ActionArgs) (i : LaneId) : Option LaneOutcome :=
  match settingOp a args with
  | some _ => settingTest s p i args.side
  | none => none

/-- An operation that a lane was handed and takes as an event of its own (R148). A setting operation passed its tests
when the action was taken: "A segment that enters EXCHANGE just after an action is taken does not undo the action" (R73);
a lane that has gone to OFF meanwhile is NOT_MAPPED (R146; log 31). -/
def handedOperation (s : State) (p : PortId) (a : Action) (args : ActionArgs) (i : LaneId) : State × LaneOutcome :=
  match settingOp a args with
  | some op => if (s.lane i).state = .off then (s, .notMapped) else settingApply s p i args.side op
  | none => laneOperation s p a args i

/-! ## Part-wide actions -/

/-- The length of a watch period in ms (R132). -/
def State.periodMs (s : State) : Nat := s.pWatch * 10

/-- FREEZE (R140, R155): the flag is set and the period timer stops; with the flag already set nothing changes. -/
def State.freezeWatch (s : State) : State :=
  if s.freeze then s else { s with freeze := true, watchTimer := none }

/-- THAW (R141, R155): the flag is cleared and, in RUNNING, the period timer starts at a full period; with the flag
already clear nothing changes. -/
def State.thawWatch (s : State) : State :=
  if s.freeze then
    { s with freeze := false, watchTimer := if s.part = .running then some s.periodMs else none }
  else s

/-- SOFT_RESET of one lane (R59, R76, R102, R129, R130): a lane in OFF keeps to OFF with P0; any other enters DOWN with
its hold set kept and goes on if nothing holds it. -/
def Lane.softReset (cfg : LegConfig) (l : Lane) : Lane :=
  let zeroed : Lane := { l with trainings := 0, failures := 0, drops := 0, retrains := 0, fc := 0 }
  if l.state = .off then Lane.mapHalves zeroed fun h => h.softReset 0
  else
    Lane.goOn cfg
      { zeroed.enterDown with
        s := l.s.setIdle.softReset cfg.sTx
        c := l.c.setIdle.softReset cfg.cTx }

/-- SOFT_RESET at the part (R157, R59, R130): refused in IMAGE_FAULT. -/
def State.softReset (s : State) : State × Overall :=
  match s.part with
  | .running =>
    ({ s with
        lanes := s.lanes.mapIdx fun i l => l.softReset (s.legConfig i)
        legState := s.legState.mapIdx fun k st => if (s.current.legs.get k).enabled then .forming else st
        freeze := false
        watchTimer := some s.periodMs }, .done)
  | _ => (s, .reason .imageFault)

/-- The overall outcome of an apply (R156). -/
def applyOverall (r : ApplyOutcome) : Overall :=
  match r with
  | .done => .done
  | r => .reason r

/-- A part-wide action with its overall outcome (R155 to R157). -/
def partOperation (s : State) (a : Action) : State × Overall :=
  match a with
  | .freeze => (s.freezeWatch, .done)
  | .thaw => (s.thawWatch, .done)
  | .applyProfile =>
    match s.apply with
    | (s', .done) => (markApply s s', .done)
    | (s', r) => (s', applyOverall r)
  | .softReset => s.softReset
  | _ => (s, .done)

/-! ## Outcome fields -/

/-- Rewrite port `p`'s action block. -/
def State.setAction (s : State) (p : PortId) (f : ActionBlock → ActionBlock) : State :=
  s.setPort p { s.port p with action := f (s.port p).action }

/-- The per-lane outcomes of a whole-action test that failed: the outcome for each named lane, NONE for the rest (R145). -/
def namedOutcomes (mask : BitVec 8) (o : LaneOutcome) : Tab 8 LaneOutcome :=
  Tab.ofFn fun b => if mask.getLsbD b.val then o else .none

/-- The overall outcome from the per-lane outcomes of the named lanes (R147). -/
def overallOf (mask : BitVec 8) (outs : Tab 8 LaneOutcome) : Overall :=
  let named := (Tab.indices 8).filter fun b => mask.getLsbD b.val
  if named.all (fun b => decide (outs.get b = .done)) then .done
  else if named.any (fun b => decide (outs.get b = .done)) then .partly
  else .refused

/-- Write one per-lane outcome. -/
def State.setOutcome (s : State) (p : PortId) (b : Fin 8) (o : LaneOutcome) : State :=
  s.setAction p fun x => { x with perLane := x.perLane.set b o }

/-- The overall outcome is derived once no operation is left to take (R147; log 10). -/
def State.closeAction (s : State) (p : PortId) : State :=
  match (s.port p).handed with
  | [] => s.setAction p fun x => { x with overall := overallOf x.args.mask x.perLane }
  | _ => s

/-- One named lane of an action being taken: an unmapped bit is NOT_MAPPED (R146); a mapped lane takes its operation now,
or is handed it to take as an event of its own (R148). -/
def takeLane (p : PortId) (a : Action) (later : BitVec 8) (s : State) (b : Fin 8) : State :=
  let args := (s.port p).action.args
  if args.mask.getLsbD b.val = false then s
  else
    match viewLane s p b with
    | none => s.setOutcome p b .notMapped
    | some i =>
      if later.getLsbD b.val then
        match earlyOutcome s p a args i with
        | some o => s.setOutcome p b o
        | none => s.setPort p { s.port p with handed := (s.port p).handed ++ [⟨b, i⟩] }
      else ((laneOperation s p a args i).1).setOutcome p b (laneOperation s p a args i).2

/-- An action that has passed the whole-action tests (R147). -/
def State.runAction (s : State) (p : PortId) (a : Action) (later : BitVec 8) : State :=
  let s := s.setAction p fun x => { x with perLane := Tab.fill 8 .none }
  if a.usesMask then ((Tab.indices 8).foldl (takeLane p a later) s).closeAction p
  else ((partOperation s a).1).setAction p fun x => { x with overall := (partOperation s a).2 }

/-- The action's code uses the mask; a reserved code does (R145: "REFUSED for each lane named in the mask"). -/
def codeUsesMask (code : Nat) : Bool :=
  match actionOfCode code with
  | some a => a.usesMask
  | none => true

/-- The outcome fields of an action that failed a whole-action test (R145). -/
def State.refuseAction (s : State) (p : PortId) (overall : Overall) (lane : LaneOutcome) : State :=
  s.setAction p fun x =>
    { x with
      overall := overall
      perLane := if codeUsesMask x.code.toNat then namedOutcomes x.args.mask lane else Tab.fill 8 .none }

/-- The Action Unit of port `p` takes one action, with the request fields as they stand (R144, R145); also what the tests
said, which the port status counts (R180). -/
def State.takeAction (s : State) (p : PortId) (later : BitVec 8) : State × ActionTest :=
  let x := (s.port p).action
  match actionTest s p x.code.toNat x.args with
  | .passed a => (s.runAction p a later, .passed a)
  | .refused => (s.refuseAction p .refused .refused, .refused)
  | .busy => (s.refuseAction p .busy .busy, .busy)

/-- A lane takes an operation handed to it earlier (R148, R159). -/
def State.takeHanded (s : State) (p : PortId) (op : HandedOp) : State :=
  let s := s.setPort p { s.port p with handed := (s.port p).handed.filter fun o => decide (o ≠ op) }
  let x := (s.port p).action
  match actionOfCode x.code.toNat with
  | some a => (((handedOperation s p a x.args op.lane).1).setOutcome p op.bit
      (handedOperation s p a x.args op.lane).2).closeAction p
  | none => s

end Sys2Proof.Machine
end

