-- ==== Sys2Proof/Machine/Ports.lean ====
section
/-! DEFINITION. Management Ports (sections 8.1 to 8.3): the holding buffer, what a write stop stores, the port status
(section 9.5), and the ends of write and read parts. -/

namespace Sys2Proof.Machine

/-! ## The holding buffer (R166) -/

/-- Store a byte under an offset, keeping the offsets strictly rising. -/
def insertEntry (off : Nat) (b : Byte) : List (Nat × Byte) → List (Nat × Byte)
  | [] => [(off, b)]
  | (o, x) :: rest =>
    if off < o then (off, b) :: (o, x) :: rest
    else if off = o then (off, b) :: rest
    else (o, x) :: insertEntry off b rest

/-- The offsets of a list of entries rise strictly and lie below 64. -/
def entriesWf : List (Nat × Byte) → Bool
  | [] => true
  | [(o, _)] => decide (o < 64)
  | (o, _) :: (o', x) :: rest => decide (o < o') && entriesWf ((o', x) :: rest)

/-- The canonical form of a holding buffer (R166): at most one entry per offset 0 to 63. -/
def HoldingBuffer.wf (b : HoldingBuffer) : Bool := entriesWf b.entries

/-- The byte marked at an offset, if any. -/
def HoldingBuffer.byteAt (b : HoldingBuffer) (off : Nat) : Option Byte := b.entries.lookup off

/-- The block a pointer names (R163). -/
def pointerBlock (p : BitVec 16) : Nat := p.toNat / 64

/-- The offset a pointer names (R163). -/
def pointerOffset (p : BitVec 16) : Nat := p.toNat % 64

/-- The pointer after one byte: the offset advances by 1 and returns from 63 to 0 of the same block (R163). -/
def advance (p : BitVec 16) : BitVec 16 := BitVec.ofNat 16 (pointerBlock p * 64 + (pointerOffset p + 1) % 64)

/-- A data byte of a write part is placed in the buffer (R166). -/
def HoldingBuffer.put (b : HoldingBuffer) (ptr : BitVec 16) (x : Byte) : HoldingBuffer :=
  { block := match b.block with
      | some k => some k
      | none => some (pointerBlock ptr)
    entries := insertEntry (pointerOffset ptr) x b.entries }

/-! ## Storing a group (R167, step 3 and 4) -/

/-- A flag byte: any nonzero value stores yes (R189). -/
def flagOf (b : Byte) : Bool := decide (b.toNat ≠ 0)

/-- The low `w` bits of a byte (R189, narrow fields). -/
def lowBits (w : Nat) (b : Byte) : Nat := b.toNat % 2 ^ w

/-- A start preset after a write of its byte, keeping the old one where the byte is not marked. -/
def presetAfter (old : Fin 4) (b : Option Byte) : Fin 4 :=
  match b with
  | some x => Fin.ofNat 4 (lowBits 3 x)
  | none => old

/-- A start preset byte whose code is 4 to 7 (R26, R189). -/
def badPreset (b : Option Byte) : Bool :=
  match b with
  | some x => decide (4 ≤ lowBits 3 x)
  | none => false

/-- A marked count byte other than 0 (R181). -/
def badCount (b : Option Byte) : Bool :=
  match b with
  | some x => decide (x.toNat ≠ 0)
  | none => false

/-- The owner of a group refuses it whole by its own rule: start presets (R26) and counts (R181). -/
def ownerRefuses (g : FieldGroup) (b : HoldingBuffer) : Bool :=
  match g with
  | .presets => badPreset (b.byteAt 0x05) || badPreset (b.byteAt 0x06) || badPreset (b.byteAt 0x07) || badPreset (b.byteAt 0x08)
  | .counts => badCount (b.byteAt 0x04) || badCount (b.byteAt 0x05) || badCount (b.byteAt 0x06)
  | _ => false

/-- A value after a write of its byte, or the old one where the byte is not marked (R167, step 2). -/
def written {α : Type} (old : α) (f : Byte → α) (b : Option Byte) : α :=
  match b with
  | some x => f x
  | none => old

/-- A value clamped into a range (00_scope, "Clamped"). -/
def clamp (lo hi n : Nat) : Nat := max lo (min hi n)

/-- A word of flags whose bit `n` is written by the byte at offset `base + n`, nonzero for 1 (R189). -/
def writtenFlags {n : Nat} (old : BitVec n) (b : HoldingBuffer) (base : Nat) : BitVec n :=
  BitVec.ofNat n (packBits ((List.range n).map fun m => (1, flagCode (written (old.getLsbD m) flagOf (b.byteAt (base + m))))))

/-- A profile leg after a write of its four bytes (12.3). -/
def writtenLeg (old : LegProfile) (b : HoldingBuffer) (k : LegId) : LegProfile :=
  { enabled := written old.enabled flagOf (b.byteAt (4 * k.val))
    base := written old.base (fun x => Fin.ofNat 16 (lowBits 4 x)) (b.byteAt (4 * k.val + 1))
    start := written old.start (fun x => Fin.ofNat 8 (lowBits 3 x)) (b.byteAt (4 * k.val + 2))
    order := written old.order (fun x => if flagOf x then .interleaved else .linear) (b.byteAt (4 * k.val + 3)) }

/-- A polarity bit (12.3). -/
def polarityOf (b : Bool) : Polarity := if b then .inverted else .normal

/-- A switch lane's polarities after a write of its byte (12.3). -/
def writtenPolarity (old : PolarityPair) (b : Option Byte) : PolarityPair :=
  written old (fun x => ⟨polarityOf (x.getLsbD 0), polarityOf (x.getLsbD 1)⟩) b

/-- The three bytes of a word of flags, 0 where a byte is not marked, the high four bits of the third dropped (12.5). -/
def flagWord (b : HoldingBuffer) (base : Nat) : BitVec 20 :=
  BitVec.ofNat 20 (((b.byteAt base).getD 0).toNat + 256 * ((b.byteAt (base + 1)).getD 0).toNat +
    65536 * ((b.byteAt (base + 2)).getD 0).toNat)

/-- The alert mask after a write: bytes that are not marked keep their content (R167, R184). -/
def writtenMask (old : BitVec 20) (b : HoldingBuffer) : BitVec 20 :=
  let bs := flagBytes old
  BitVec.ofNat 20 (((b.byteAt 0x04).getD (bs.getD 0 0)).toNat + 256 * ((b.byteAt 0x05).getD (bs.getD 1 0)).toNat +
    65536 * ((b.byteAt 0x06).getD (bs.getD 2 0)).toNat)

/-- The request fields after a write (12.5, R189). -/
def writtenArgs (old : ActionArgs) (b : HoldingBuffer) : ActionArgs :=
  { side := written old.side (fun x => if flagOf x then .far else .near) (b.byteAt 0x01)
    mask := written old.mask id (b.byteAt 0x02)
    tap := written old.tap (fun x => Fin.ofNat 4 (lowBits 2 x)) (b.byteAt 0x03)
    direction := written old.direction (fun x => if flagOf x then .plus else .minus) (b.byteAt 0x04)
    preset := written old.preset (fun x => Fin.ofNat 8 (lowBits 3 x)) (b.byteAt 0x05) }

/-- Rewrite a leg's configuration. -/
def State.setLeg (s : State) (k : LegId) (c : LegConfig) : State := { s with legs := s.legs.set k c }

/-- An allowed group of leg `k`'s record is stored (R24 to R26, R178). -/
def storeLegGroup (k : LegId) (g : FieldGroup) (b : HoldingBuffer) (s : State) : State :=
  let c := s.legs.get k
  match g with
  | .threshold =>
    s.setLeg k { c with
      threshold := written c.threshold (fun x => clamp 0 186 x.toNat) (b.byteAt 0x02)
      lowMargin := written c.lowMargin flagOf (b.byteAt 0x03) }
  | .retrain => s.setLeg k { c with autoRetrain := written c.autoRetrain flagOf (b.byteAt 0x04) }
  | .presets =>
    s.setLeg k { c with
      sTx := presetAfter c.sTx (b.byteAt 0x05)
      cTx := presetAfter c.cTx (b.byteAt 0x06)
      sPartner := presetAfter c.sPartner (b.byteAt 0x07)
      cPartner := presetAfter c.cPartner (b.byteAt 0x08) }
  | .busy =>
    let m := written (s.busy.get k) (fun x => ⟨x.getLsbD 0, x.getLsbD 1, x.getLsbD 2, x.getLsbD 3⟩) (b.byteAt 0x09)
    { s with busy := s.busy.set k m }
  | _ => s

/-- An allowed group is stored whole by its owner (R167, step 4; R189). -/
def storeGroup (p : PortId) (r : Record) (b : HoldingBuffer) (s : State) (g : FieldGroup) : State :=
  match g with
  | .hysteresis => { s with hysteresis := written s.hysteresis (fun x => clamp 0 7 x.toNat) (b.byteAt 0x18) }
  | .watchParams =>
    { s with
      pWatch := written s.pWatch (fun x => clamp 1 255 x.toNat) (b.byteAt 0x19)
      dDrop := written s.dDrop (fun x => clamp 0 63 x.toNat) (b.byteAt 0x1A)
      kAlarm := written s.kAlarm (fun x => clamp 1 15 x.toNat) (b.byteAt 0x1B) }
  | .profile =>
    { s with pendingProfile :=
        { legs := s.pendingProfile.legs.mapIdx fun k l => writtenLeg l b k
          lanes := s.pendingProfile.lanes.mapIdx fun x l => writtenPolarity l (b.byteAt (0x10 + x.val)) } }
  | .readEntries =>
    { s with policy := PolicyTable.fixed { s.policy with read := writtenFlags s.policy.read b 0x00 } }
  | .writeEntries =>
    { s with policy := PolicyTable.fixed { s.policy with write := writtenFlags s.policy.write b 0x20 } }
  | .actionEntries =>
    { s with policy := PolicyTable.fixed { s.policy with actions := writtenFlags s.policy.actions b 0x00 } }
  | .farEntry => { s with policy := { s.policy with far := written s.policy.far flagOf (b.byteAt 0x10) } }
  | .request =>
    s.setAction p fun x => { x with code := written x.code id (b.byteAt 0x00), args := writtenArgs x.args b }
  | .counts =>
    let x := s.port p
    s.setPort p { x with status := { x.status with
      refused := written x.status.refused (fun _ => 0) (b.byteAt 0x04)
      busy := written x.status.busy (fun _ => 0) (b.byteAt 0x05)
      unmapped := written x.status.unmapped (fun _ => 0) (b.byteAt 0x06) } }
  | .bitmap =>
    let x := s.port p
    s.setPort p { x with bitmap := x.bitmap &&& ~~~(flagWord b 0x00) }
  | .mask =>
    let x := s.port p
    s.setPort p { x with mask := writtenMask x.mask b }
  | g =>
    match r with
    | .leg k => storeLegGroup k g b s
    | _ => s

/-! ## The port status (R180) -/

/-- What became of the items of a write stop: how many groups and actions were taken, refused and busy, and the lowest
offset of a byte not stored. -/
structure Tally where
  taken : Nat
  refused : Nat
  busy : Nat
  lowest : Option Nat
  deriving DecidableEq, Repr

/-- The last outcome from the items (R180). -/
def Tally.outcome (t : Tally) : LastOutcome :=
  if t.refused + t.busy = 0 then .ok
  else if 0 < t.taken then .partly
  else if 0 < t.refused then .refused
  else .busy

/-- A count raised by a number, holding at 255 (R180). -/
def raiseStatus (n k : Nat) : Nat := min statusMax (n + k)

/-- The port status after a write stop whose block was mapped (R180). -/
def PortStatus.afterWrite (st : PortStatus) (block : Nat) (t : Tally) : PortStatus :=
  { st with
    last := t.outcome
    refused := raiseStatus st.refused t.refused
    busy := raiseStatus st.busy t.busy
    discarded := t.lowest.map fun off => block * 64 + off }

/-- The port status after a write stop whose block was unmapped (R180). -/
def PortStatus.afterUnmapped (st : PortStatus) (block off : Nat) : PortStatus :=
  { st with
    last := .unmapped
    unmapped := raiseStatus st.unmapped 1
    discarded := some (block * 64 + off) }

/-- Rewrite port `p`'s status. -/
def State.setStatus (s : State) (p : PortId) (f : PortStatus → PortStatus) : State :=
  s.setPort p { s.port p with status := f (s.port p).status }

/-! ## A write stop (R167) -/

/-- The written groups of a buffer, each once (R167, step 2). -/
def writtenGroups (s : State) (p : PortId) (r : Record) (b : HoldingBuffer) : List FieldGroup :=
  (b.entries.map fun e => groupAt s p r e.1).eraseDups

/-- The answer to a written group, the owner's own refusal included (R167, step 3). -/
def groupAnswer (s : State) (p : PortId) (r : Record) (b : HoldingBuffer) (g : FieldGroup) : Answer :=
  match judgeWrite s p r g with
  | .allow => if ownerRefuses g b then .refused else .allow
  | a => a

/-- The items of the written groups (R180). -/
def tallyGroups (s : State) (p : PortId) (r : Record) (b : HoldingBuffer) : Tally :=
  let gs := writtenGroups s p r b
  { taken := gs.countP fun g => decide (groupAnswer s p r b g = .allow)
    refused := gs.countP fun g => decide (groupAnswer s p r b g = .refused)
    busy := gs.countP fun g => decide (groupAnswer s p r b g = .busy)
    lowest := (b.entries.find? fun e => decide (groupAnswer s p r b (groupAt s p r e.1) ≠ .allow)).map Prod.fst }

/-- The item of an action (R180). -/
def Tally.withAction (t : Tally) (a : ActionTest) : Tally :=
  match a with
  | .passed _ => { t with taken := t.taken + 1 }
  | .refused => { t with refused := t.refused + 1 }
  | .busy => { t with busy := t.busy + 1 }

/-- The allowed groups, stored together (R167, step 4). -/
def storeGroups (s : State) (p : PortId) (r : Record) (b : HoldingBuffer) : State :=
  ((writtenGroups s p r b).filter fun g => decide (groupAnswer s p r b g = .allow)).foldl (storeGroup p r b) s

/-- The write stores the code byte of the action block, so that an action is taken (R144). -/
def writesCode (s : State) (p : PortId) (r : Record) (b : HoldingBuffer) : Bool :=
  decide (r = .action) && (b.byteAt 0).isSome && decide (groupAnswer s p r b .request = .allow)

/-- What a write stop of buffer `b`, block `block`, leaves before the Change Tracker (R167, R180), and the state right
after its groups were stored. -/
def writeEffect (s : State) (p : PortId) (block : Nat) (b : HoldingBuffer) (later : BitVec 8) : State × State :=
  match resolve s p block with
  | none =>
    let off := match b.entries with
      | [] => 0
      | e :: _ => e.1
    (s, s.setStatus p fun st => st.afterUnmapped block off)
  | some r =>
    let mid := storeGroups s p r b
    let t := tallyGroups s p r b
    if writesCode s p r b then
      let acted := mid.takeAction p later
      (mid, acted.1.setStatus p fun st => st.afterWrite block (t.withAction acted.2))
    else (mid, mid.setStatus p fun st => st.afterWrite block t)

/-- At most `n` of the lane operations handed out through port `p` are taken, the first first, each as an event of its own
(R148). -/
def settleUpTo : Nat → State → PortId → State
  | 0, s, _ => s
  | n + 1, s, p =>
    match (s.port p).handed with
    | [] => s
    | op :: _ => settleUpTo n (engineEvent s (s.takeHanded p op)) p

/-- Every lane operation still handed out through port `p` is taken before the port's next transaction: "Between
transactions the Action Unit holds no action in progress" (R144; log 10). -/
def settleHanded (s : State) (p : PortId) : State := settleUpTo (s.port p).handed.length s p

/-- A write stop, tracked (R167, R183). -/
def writeStop (s : State) (p : PortId) (block : Nat) (b : HoldingBuffer) (later : BitVec 8) : State :=
  let s := settleHanded s p
  let e := writeEffect s p block b later
  track s (some (p, e.1)) e.2

/-- A write stop of its own, of the given bytes in a block, at a port that acknowledges; the bus side of the port (phase,
pointer, buffer) is left alone (log 11). A write without a byte is no write (R180). -/
def hostWrite (s : State) (p : PortId) (block : Nat) (entries : List (Nat × Byte)) (later : BitVec 8) : State :=
  if acknowledges s p ∧ entries ≠ [] then writeStop s p block ⟨some block, entries⟩ later else s

/-- The six request bytes of an action (12.5). -/
def requestEntries (code : Byte) (args : ActionArgs) : List (Nat × Byte) :=
  [(0x00, code), (0x01, byte (sideCode args.side)), (0x02, args.mask), (0x03, byte args.tap.val),
    (0x04, byte (directionCode args.direction)), (0x05, byte args.preset.val)]

/-- A write stop that issues an action through port `p` (R144). -/
def issueCode (s : State) (p : PortId) (code : Byte) (args : ActionArgs) (later : BitVec 8) : State :=
  hostWrite s p 0x30 (requestEntries code args) later

/-- A write stop that issues an action of the fourteen. -/
def issueAction (s : State) (p : PortId) (a : Action) (args : ActionArgs) (later : BitVec 8) : State :=
  issueCode s p (byte a.code) args later

/-! ## The ends of parts (R162, R165, R167) -/

/-- The end of a write part: the buffer is taken if it holds a byte, and emptied (R166, R167). -/
def endWritePart (s : State) (p : PortId) (later : BitVec 8) : State :=
  let b := (s.port p).buffer
  let s' := match b.block with
    | some block => writeStop s p block b later
    | none => s
  s'.setPort p { s'.port p with phase := .idle, buffer := HoldingBuffer.empty, line := .released }

/-- The port status after a read part that sent a byte of a refused group (R180). -/
def PortStatus.afterRefusedRead (st : PortStatus) : PortStatus :=
  { st with last := .refused, refused := raiseStatus st.refused 1 }

/-- The end of a read part: the snapshot is dropped, a byte of a refused group is recorded, and the phase moves on (R165,
R180). -/
def endReadPart (s : State) (p : PortId) (phase : PortPhase) : State :=
  let x := s.port p
  let st := if x.sentRefused then x.status.afterRefusedRead else x.status
  engineEvent s
    (s.setPort p { x with phase := phase, snapshot := none, sentRefused := false, line := .released, status := st })

/-- The part under way at a port, if any, ends (R162: "any but IDLE | stop or repeated start"). -/
def endPart (s : State) (p : PortId) : State :=
  match (s.port p).phase with
  | .idle => s
  | .reading => endReadPart s p .idle
  | .readEnded => endReadPart s p .idle
  | _ => endWritePart s p 0

end Sys2Proof.Machine
end

