-- ==== Sys2Proof/Machine/Operands.lean ====
section
/-! DEFINITION. What the operands of a command name: the segment behind a receiver pair, the pair's line, the pair's
polarity, and the bytes of a written group. -/

namespace Sys2Proof.Machine

/-- The signal and lock of a receiver pair. -/
def State.rx (s : State) (r : Receiver) : RxLine :=
  match r with
  | .cPair i => s.cRx.get i
  | .sPair p => s.sRx.get p

/-- Replace the signal and lock of a receiver pair. -/
def State.setRx (s : State) (r : Receiver) (x : RxLine) : State :=
  match r with
  | .cPair i => { s with cRx := s.cRx.set i x }
  | .sPair p => { s with sRx := s.sRx.set p x }

/-- The lane and side whose segment stands on a receiver pair, if any (R9). -/
def State.standing (s : State) (r : Receiver) : Option (LaneId × Side) :=
  match r with
  | .cPair i => some (i, .C)
  | .sPair p => ((Tab.indices 8).find? fun i => decide ((s.lane i).sPair = some p)).map fun i => (i, .S)

/-- The receive polarity of a pair: of the wiring record on the C side, of the current profile on the S side (R4, R9;
log 13). -/
def State.rxPolarity (s : State) (r : Receiver) : Polarity :=
  match r with
  | .cPair i => (s.wiring.cPolarity.get i).rx
  | .sPair p => (s.current.lanes.get p).rx

/-- The receive polarity of a side of a lane; an S-segment on no pairs recovers nothing (R4, R9; log 13). -/
def State.sideRxPolarity (s : State) (i : LaneId) (d : Side) : Polarity :=
  match d with
  | .C => s.rxPolarity (.cPair i)
  | .S =>
    match (s.lane i).sPair with
    | some p => s.rxPolarity (.sPair p)
    | none => .normal

/-- The transmit polarity of a side of a lane (R4, R9; log 13). -/
def State.txPolarity (s : State) (i : LaneId) (d : Side) : Polarity :=
  match d with
  | .C => (s.wiring.cPolarity.get i).tx
  | .S =>
    match (s.lane i).sPair with
    | some p => (s.current.lanes.get p).tx
    | none => .normal

/-- The written bytes among three optional ones at consecutive offsets. -/
def optionalEntries (base : Nat) : List (Option Byte) → List (Nat × Byte)
  | [] => []
  | some b :: rest => (base, b) :: optionalEntries (base + 1) rest
  | none :: rest => optionalEntries (base + 1) rest

/-- The three bytes of twenty flags at consecutive offsets (12.5). -/
def flagEntries (base : Nat) (flags : BitVec 20) : List (Nat × Byte) :=
  [(base, byte flags.toNat), (base + 1, byte (flags.toNat / 256)), (base + 2, byte (flags.toNat / 65536))]

end Sys2Proof.Machine
end

