-- ==== Sys2Proof/Machine/Flags.lean ====
section
/-! DEFINITION. The lines the part drives, computed from the state: the alert lines (R185) and what each transmitter sends
(R29, R30, R79, R80). -/

namespace Sys2Proof.Machine

/-- Alert line `p` is driven low (R185). -/
def alertLine (s : State) (p : PortId) : Bool := decide ((s.port p).bitmap &&& (s.port p).mask ≠ 0)

/-- What a transmitter sends (R29), and the setting that shapes each symbol from this event on (R60). -/
inductive TxOutput where
  | squelched
  /-- tuning frames; the symbols of a frame that begins now, on the line -/
  | frames (bits : BitVec 94) (shape : Setting)
  /-- the symbols that the receiver of the given side of its lane recovers, retimed, in the transmitter's polarity (R4,
  R30) -/
  | forward (feed : Side) (polarity : Polarity) (shape : Setting)
  deriving DecidableEq, Repr

/-- The echo a frame carries: the current setting and the stack depth (R80, R192). -/
def TxUnit.echo (u : TxUnit) : Echo :=
  { pre := BitVec.ofNat 4 u.current.pre.natAbs
    main := BitVec.ofInt 6 u.current.main
    post1 := BitVec.ofNat 5 u.current.post1.natAbs
    post2 := BitVec.ofInt 4 u.current.post2
    depth := BitVec.ofNat 4 u.stack.length }

/-- The tap code a frame carries for a request: STEP and TRY name one, the other kinds send PRE (R80). -/
def Request.tapCode (r : Request) : Nat :=
  match r with
  | .step t _ => t.code
  | .trial t _ => t.code
  | _ => 0

/-- The direction bit a frame carries for a request; the lowest code where the kind has none (R80). -/
def Request.dirBit (r : Request) : Bool :=
  match r with
  | .step _ d => decide (d = .plus)
  | .trial _ d => decide (d = .plus)
  | _ => false

/-- The preset code a frame carries for a request; 0 where the kind has none (R80). -/
def Request.presetCode (r : Request) : Nat :=
  match r with
  | .preset p => p.val
  | _ => 0

/-- The frame a side's segment sends, as it would begin now (R79, R80). -/
def Half.frame (h : Half) : Frame :=
  { session := BitVec.ofNat 4 h.seg.own.val
    ready := h.seg.ownReady
    kind := BitVec.ofNat 3 (match h.req.outstanding with | some (r, _) => r.kindCode | none => 0)
    tap := BitVec.ofNat 2 (match h.req.outstanding with | some (r, _) => r.tapCode | none => 0)
    dir := (match h.req.outstanding with | some (r, _) => r.dirBit | none => false)
    preset := BitVec.ofNat 3 (match h.req.outstanding with | some (r, _) => r.presetCode | none => 0)
    tag := BitVec.ofNat 2 (match h.req.outstanding with | some (_, tag) => tag.val | none => 0)
    replyTag := BitVec.ofNat 3 (match h.resp.lastTag with | some tag => tag.val | none => 4)
    replyOutcome := BitVec.ofNat 3 (match h.resp.lastTag with | some _ => h.resp.outcome.code | none => 0)
    echo := h.tx.echo }

/-- The other side of a lane. -/
def Side.opposite : Side → Side
  | .S => .C
  | .C => .S

/-- The S-segment of the lane stands on no pairs (R9). -/
def Lane.parted (l : Lane) : Bool := l.sPair.isNone

/-- What the transmitter of side `d` of lane `i` sends (R4, R9, R29, R30, R60, R79). -/
def txOutput (s : State) (i : LaneId) (d : Side) : TxOutput :=
  let l := s.lane i
  if d = .S ∧ l.parted = true then .squelched
  else
    match l.state with
    | .train | .ready =>
      if (l.half d).seg.state = .idle then .squelched
      else .frames (throughPolarity (s.txPolarity i d) (l.half d).frame.encode) (l.half d).tx.current
    | .carry =>
      let feed := Side.opposite d
      if (l.half feed).seg.tRelock.isSome ∨ (feed = .S ∧ l.parted = true) then .squelched
      else .forward feed (s.txPolarity i d) (l.half d).tx.current
    | _ => .squelched

/-- The symbols that leave the transmitter of side `d` of lane `i` for symbols on the line of the receiver that feeds it,
and the setting that shapes them: recovered in that receiver's polarity and sent in the transmitter's (R4, R9, R30, R60).
None where the transmitter does not forward. -/
def retimed {n : Nat} (s : State) (i : LaneId) (d : Side) (line : BitVec n) : Option (BitVec n × Setting) :=
  match txOutput s i d with
  | .forward feed polarity shape =>
    some (throughPolarity polarity (throughPolarity (s.sideRxPolarity i feed) line), shape)
  | _ => none

end Sys2Proof.Machine
end

