-- ==== Sys2Proof/Machine/Resets.lean ====
section
/-! DEFINITION. Power-on, the reset lines and the image load (chapter 11, sections 2.4 and 2.8). -/

namespace Sys2Proof.Machine

/-- Every block at its reset values (R28, R31, R54, R102, R129, R130, R143, R173, R182), in LOADING. The queue, the
levels of the reset lines, and signal and lock at the receivers belong to the outside (log 4); the store keeps its image
(R186). The failing leg then is log 36's. -/
def State.resetBlocks (s : State) (running : Bool) : State :=
  { State.reset with
    pending := s.pending
    store := s.store
    loadRunning := running
    switchLine := s.switchLine
    legLines := s.legLines
    cRx := s.cRx
    sRx := s.sRx }

/-- POWER_ON: every block is reset, and a load begins if the switch reset line is released (R187). The operands are the
levels of the reset lines (log 7). -/
def execPowerOn (switchLine : Bool) (legLines : Tab 4 Bool) (s : State) : Host.Outcome State Fault Refusal :=
  .next (State.resetBlocks { s with switchLine := switchLine, legLines := legLines } (!switchLine))

/-- SWITCH_RESET_ASSERTED: any load is abandoned, every block is reset, and the part is held in LOADING (R187). -/
def execSwitchResetAsserted (s : State) : Host.Outcome State Fault Refusal :=
  .next (State.resetBlocks { s with switchLine := true } false)

/-- SWITCH_RESET_RELEASED: a load begins in a part that is held (R187). -/
def execSwitchResetReleased (s : State) : Host.Outcome State Fault Refusal :=
  if s.switchLine = true then .next { s with switchLine := false, loadRunning := true } else .next s

/-! ## The image load -/

/-- The bytes an image's check covers: every content before the check, in the order of the table of R186. The serial is its
16 characters and the length code one byte; how the bytes spell the other contents is not stated (log 6). -/
def imageBytes (img : FactoryImage) : List Byte :=
  img.serial.list ++ [img.lengthCode] ++ Config.wiringBytes img.wiring ++ Config.profileBytes img.profile ++
    Config.policyBytes img.policy ++
    Config.thresholdBytes img.hysteresis img.pWatch img.dDrop img.kAlarm img.legs

/-- What the Image Loader finds (R186): the check is tested before the wiring. -/
def imageCause (img : FactoryImage) : FaultCause :=
  if imageCheck (imageBytes img) ≠ img.check then .check
  else if wiringValid img.wiring = false then .wiring
  else .none

/-- A start preset from an image; a code from 4 to 7 takes the built-in value (R27). -/
def imagePreset (code : Fin 8) (builtIn : Fin 4) : Fin 4 := (presetOfCode code.val).getD builtIn

/-- A present leg's configuration from an image, clamped (R27). -/
def installLeg (x : ImageLeg) : LegConfig :=
  { threshold := clamp 0 186 x.threshold.toNat
    lowMargin := x.lowMargin
    autoRetrain := x.autoRetrain
    sTx := imagePreset x.sTx builtInLeg.sTx
    cTx := imagePreset x.cTx builtInLeg.cTx
    sPartner := imagePreset x.sPartner builtInLeg.sPartner
    cPartner := imagePreset x.cPartner builtInLeg.cPartner }

/-- The configuration a good image installs: identification, wiring, leg records, H and the watch parameters (clamped),
and the policy table (R1, R27, R112, R131, R176, R188). -/
def State.installConfig (s : State) (img : FactoryImage) : State :=
  { s with
    serial := img.serial
    lengthCode := img.lengthCode
    wiring := installWiring img.wiring
    legs := Tab.ofFn fun k =>
      if (installWiring img.wiring).present k then installLeg (img.legs.get k) else builtInLeg
    hysteresis := clamp 0 7 img.hysteresis.toNat
    pWatch := clamp 1 255 img.pWatch.toNat
    dDrop := clamp 0 63 img.dDrop.toNat
    kAlarm := clamp 1 15 img.kAlarm.toNat
    policy := PolicyTable.fixed img.policy }

/-- The default profile is installed (R6, R15): current if valid; otherwise every leg stays disabled and the apply
outcome says why. Either way the pending profile is the image's. -/
def State.installProfile (s : State) (p : Profile) : State :=
  match validate s.wiring p with
  | none => { s.setCurrent p with pendingProfile := p, applyOutcome := .none, failingLeg := 0 }
  | some (r, k) => { s.setCurrent disabledProfile with pendingProfile := p, applyOutcome := r, failingLeg := k }

/-- A load completes with a good image: RUNNING (R187). The lanes of enabled legs leave OFF (R15, R58), the freeze flag is
clear (R141), and the watch period timer starts (R132). `s` is the part in LOADING, whose current profile has every leg disabled. -/
def State.loadGood (s : State) (img : FactoryImage) : State :=
  let s' := (s.installConfig img).installProfile img.profile
  let s' := State.takeProfile s s'
  { s' with
    part := .running, loadRunning := false, faultCause := .none, freeze := false, watchTimer := some s'.periodMs }

/-- A load completes with a bad image: IMAGE_FAULT with the built-in values (R188). With cause WIRING the identification
is the image's, with cause CHECK it reads zeros. -/
def State.loadBad (s : State) (img : FactoryImage) (cause : FaultCause) : State :=
  { State.resetBlocks s false with
    part := .imageFault
    faultCause := cause
    serial := if cause = .wiring then img.serial else Tab.fill 16 0
    lengthCode := if cause = .wiring then img.lengthCode else 0 }

/-- A running load ends with what the store holds (R187). -/
def State.completeLoad (s : State) : State :=
  match imageCause s.store with
  | .none => s.loadGood s.store
  | cause => s.loadBad s.store cause

/-- IMAGE_LOAD_COMPLETE: a running load ends with the image of the store, or with the one it has found there since the state
last said so (R187; log 38). It marks no change group (R182). -/
def execImageLoadComplete (found : Option FactoryImage) (s : State) : Host.Outcome State Fault Refusal :=
  if s.part = .loading ∧ s.loadRunning = true then
    .next (State.completeLoad { s with store := found.getD s.store })
  else .next s

/-! ## Leg reset lines (R53) -/

/-- LINE is added to a lane of the leg that is not OFF (R53). -/
def Lane.assertLine (l : Lane) : Lane :=
  if l.state = .off then l else l.addHold { l.hold with line := true }

/-- LEG_RESET_ASSERTED: LINE joins the hold set of every lane of the leg that is not OFF (R53). -/
def execLegResetAsserted (k : LegId) (s : State) : Host.Outcome State Fault Refusal :=
  let s' := { s with legLines := s.legLines.set k true }
  let s' := s'.mapLeg k fun _ l => l.assertLine
  let s' := { s' with legState := s'.legState.modify k fun st => if st = .live then .forming else st }
  .next (engineEvent s s')

/-- LINE and LEG leave a lane of the leg; a lane in DOWN whose set is then empty enters TRAIN fresh (R53). -/
def Lane.releaseLine (cfg : LegConfig) (l : Lane) : Lane :=
  Lane.goOn cfg { l with hold := { l.hold with line := false, leg := false } }

/-- The state of port M(k+1) at the release of leg k's reset line (R143, R173, R185). -/
def Port.legRelease (_x : Port) : Port := Port.reset

/-- LEG_RESET_RELEASED: LINE and LEG leave the leg's lanes, and the state of the leg's port is cleared (R53, R173, R185).
Operations handed out through the port are taken first (log 10). A line that is not asserted cannot be released
(log 25). -/
def execLegResetReleased (k : LegId) (s : State) : Host.Outcome State Fault Refusal :=
  if s.legLines.get k = true then
    let s := settleHanded s (legPort k)
    let s' := { s with legLines := s.legLines.set k false }
    let s' := s'.mapLeg k fun i l => l.releaseLine (s'.legConfig i)
    let t := engineEvent s s'
    .next (t.setPort (legPort k) (t.port (legPort k)).legRelease)
  else .next s

end Sys2Proof.Machine
end

