-- ==== Sys2Proof/Machine/ReceiverEvents.lean ====
section
/-! DEFINITION. What the channel gives a receiver: signal, lock and frames (sections 2.2, 4.1 to 4.8, 5.1). -/

namespace Sys2Proof.Machine

/-- The segment watches signal and lock: EXCHANGE and DONE (R36). -/
def SegState.watchesLine (x : SegState) : Bool :=
  match x with
  | .idle => false
  | .detect => false
  | .exchange => true
  | .done => true

/-- Loss at a receiver in EXCHANGE or DONE: a lane in CARRY drops (R48), and otherwise the segment fails with LOCK_LOST
(R36, R37). -/
def State.lineLoss (s : State) (i : LaneId) (d : Side) : State :=
  if (s.lane i).state = .carry then s.drop i else s.failSegment i d .lockLost

/-- A scan still in flight on a receiver that has lost lock ends with NO READING (R108). -/
def State.scanLosesLock (s : State) (i : LaneId) (d : Side) : State :=
  s.applyOut i d (((s.lane i).half d).scanLosesLock (s.ctx i d))

/-- Loss of signal at the receiver of side `d` of lane `i` (R33, R36, R48, R108). -/
def State.segmentLosesSignal (s : State) (i : LaneId) (d : Side) : State :=
  let s := if ((s.lane i).half d).seg.state.watchesLine then s.lineLoss i d else s
  s.scanLosesLock i d

/-- T_relock starts on a side whose segment is in EXCHANGE or DONE (R36). -/
def Half.startRelock (h : Half) : Half :=
  if h.seg.state.watchesLine then { h with seg := { h.seg with tRelock := some msRelock } } else h

/-- Loss of lock with the signal still present (R36, R108). -/
def State.segmentLosesLock (s : State) (i : LaneId) (d : Side) : State :=
  let s := s.setLane i ((s.lane i).setHalf d ((s.lane i).half d).startRelock)
  s.scanLosesLock i d

/-- T_relock stops on a side (R36). -/
def Half.stopRelock (h : Half) : Half := { h with seg := { h.seg with tRelock := none } }

/-- SIGNAL_LOST: signal and lock go, and the segment that stands on the pair takes the loss (R36). A receiver without
signal has none to lose (log 21). -/
def execSignalLost (r : Receiver) (s : State) : Host.Outcome State Fault Refusal :=
  if (s.rx r).signal = true then
    let s' := s.setRx r ⟨false, false⟩
    match s'.standing r with
    | some (i, d) => .next (engineEvent s (s'.segmentLosesSignal i d))
    | none => .next s'
  else .next s

/-- LOCK_LOST: lock goes with the signal still present (R36). A receiver without lock has none to lose (log 21). -/
def execLockLost (r : Receiver) (s : State) : Host.Outcome State Fault Refusal :=
  if (s.rx r).lock = true then
    let s' := s.setRx r { s.rx r with lock := false }
    match s'.standing r with
    | some (i, d) => .next (engineEvent s (s'.segmentLosesLock i d))
    | none => .next s'
  else .next s

/-- LOCK_REGAINED: the receiver locks again, and T_relock stops (R36). No field of the record space changes. A receiver
without signal does not lock, and one with lock has none to regain (log 21). -/
def execLockRegained (r : Receiver) (s : State) : Host.Outcome State Fault Refusal :=
  if (s.rx r).signal = true ∧ (s.rx r).lock = false then
    let s' := s.setRx r { s.rx r with lock := true }
    match s'.standing r with
    | some (i, d) => .next (s'.setLane i ((s'.lane i).setHalf d ((s'.lane i).half d).stopRelock))
    | none => .next s'
  else .next s

/-- SIGNAL_PRESENT: a receiver that had lost the signal finds it again, still without lock (R33). -/
def execSignalPresent (r : Receiver) (s : State) : Host.Outcome State Fault Refusal :=
  if (s.rx r).signal = false then .next (s.setRx r ⟨true, false⟩) else .next s

/-! ## Frames -/

/-- A good frame at a segment that is not IDLE (R84). In CARRY a frame of the partner's session is not acted on and one of
another session is a partner restart, which drops the lane (R38, R48). -/
def State.goodFrame (s : State) (i : LaneId) (d : Side) (f : Frame) : State :=
  let l := s.lane i
  if l.state = .carry then
    if (l.half d).seg.partner = some f.sessionNumber then s else s.drop i
  else s.applyOut i d ((l.half d).takeFrame (s.ctx i d) f)

/-- A received frame whose check does not match: counted, nothing else (R81). -/
def Half.countBadFrame (h : Half) : Half := { h with frameErrors := satInc counterMax h.frameErrors }

/-- An inverted marker (R82). -/
def Half.suspectPolarity (h : Half) : Half := { h with seg := { h.seg with polaritySuspect := true } }

/-- What a receiver found, taken by a segment that is not IDLE (R81, R82, R84). -/
def State.takeReception (s : State) (i : LaneId) (d : Side) (x : Reception) : State :=
  let l := s.lane i
  match x with
  | .good f => s.goodFrame i d f
  | .badCheck => s.setLane i (l.setHalf d (l.half d).countBadFrame)
  | .inverted => if l.state = .carry then s else s.setLane i (l.setHalf d (l.half d).suspectPolarity)
  | .noMarker => s

/-- FRAME_RECEIVED: 47 symbols on the line of a receiver with lock, at a segment that is not IDLE (R39, R81, R192). A
receiver without lock recovers no frame (R36; log 8). -/
def execFrameReceived (r : Receiver) (bits : BitVec 94) (s : State) : Host.Outcome State Fault Refusal :=
  if (s.rx r).signal = true ∧ (s.rx r).lock = true then
    match s.standing r with
    | some (i, d) =>
      if ((s.lane i).half d).seg.state = .idle then .next s
      else .next (engineEvent s (s.takeReception i d (receive (s.rxPolarity r) bits)))
    | none => .next s
  else .next s

end Sys2Proof.Machine
end

