-- ==== Sys2Proof/Machine/TimerEvents.lean ====
section
/-! DEFINITION. The expiries of the timers and the end of a scan window (sections 2.2, 4.6, 5.1, 5.4, 6.2). A timer that is
stopped does not expire: its expiry then has no effect (log 1, log 21). -/

namespace Sys2Proof.Machine

/-- Rewrite one side of a lane. -/
def State.modifyHalf (s : State) (i : LaneId) (d : Side) (f : Half → Half) : State :=
  s.setLane i ((s.lane i).setHalf d (f ((s.lane i).half d)))

/-- One side of a lane. -/
def State.half (s : State) (i : LaneId) (d : Side) : Half := (s.lane i).half d

/-- T_acquire stops. -/
def Half.stopAcquire (h : Half) : Half := { h with seg := { h.seg with tAcquire := none } }

/-- T_tune stops. -/
def Half.stopTune (h : Half) : Half := { h with seg := { h.seg with tTune := none } }

/-- T_reply stops. -/
def Half.stopReply (h : Half) : Half := { h with req := { h.req with tReply := none } }

/-- T_settle stops. -/
def Half.stopSettle (h : Half) : Half := { h with search := { h.search with tSettle := none } }

/-- T_ACQUIRE_EXPIRY (R33, R37). -/
def execTAcquireExpiry (i : LaneId) (d : Side) (s : State) : Host.Outcome State Fault Refusal :=
  match (s.half i d).seg.tAcquire with
  | none => .next s
  | some _ => .next (engineEvent s ((s.modifyHalf i d Half.stopAcquire).failSegment i d .acquireTimeout))

/-- T_RELOCK_EXPIRY: as loss of signal (R36, R48). -/
def execTRelockExpiry (i : LaneId) (d : Side) (s : State) : Host.Outcome State Fault Refusal :=
  match (s.half i d).seg.tRelock with
  | none => .next s
  | some _ => .next (engineEvent s ((s.modifyHalf i d Half.stopRelock).lineLoss i d))

/-- T_TUNE_EXPIRY (R34, R37). -/
def execTTuneExpiry (i : LaneId) (d : Side) (s : State) : Host.Outcome State Fault Refusal :=
  match (s.half i d).seg.tTune with
  | none => .next s
  | some _ => .next (engineEvent s ((s.modifyHalf i d Half.stopTune).failSegment i d .tuneTimeout))

/-- T_REPLY_EXPIRY (R95, R37). -/
def execTReplyExpiry (i : LaneId) (d : Side) (s : State) : Host.Outcome State Fault Refusal :=
  match (s.half i d).req.tReply with
  | none => .next s
  | some _ => .next (engineEvent s ((s.modifyHalf i d Half.stopReply).failSegment i d .replyTimeout))

/-- T_SETTLE_EXPIRY: the search requests a SEARCH scan (R117, R121, R104). -/
def execTSettleExpiry (i : LaneId) (d : Side) (s : State) : Host.Outcome State Fault Refusal :=
  match (s.half i d).search.tSettle with
  | none => .next s
  | some _ =>
    .next (engineEvent s (s.applyOut i d ((s.half i d).stopSettle.requestSearchScan (s.ctx i d))))

/-- T_QUIET_EXPIRY: a lane in WAIT enters TRAIN fresh with fc unchanged (R45). -/
def execTQuietExpiry (i : LaneId) (s : State) : Host.Outcome State Fault Refusal :=
  if (s.lane i).state = .wait ∧ (s.lane i).tQuiet.isSome = true then
    .next (engineEvent s (s.moveLane i fun l => l.trainFresh (s.legConfig i)))
  else .next s

/-- The watch requests a scan of one receiver of a lane in CARRY (R133). -/
def State.watchReceiver (s : State) (i : LaneId) (d : Side) : State :=
  if (s.lane i).state = .carry then s.applyOut i d ((s.half i d).requestWatchScan (s.ctx i d)) else s

/-- The watch requests a scan of both receivers of a lane in CARRY (R133). -/
def State.watchLane (s : State) (i : LaneId) : State := (s.watchReceiver i .S).watchReceiver i .C

/-- WATCH_PERIOD_EXPIRY: every receiver of every lane in CARRY is asked to scan, and the timer starts again with P_watch as
it stands (R132, R133). -/
def execWatchPeriodExpiry (s : State) : Host.Outcome State Fault Refusal :=
  match s.watchTimer with
  | none => .next s
  | some _ =>
    .next (engineEvent s
      ((Tab.indices 8).foldl State.watchLane { s with watchTimer := some s.periodMs }))

/-- SCAN_WINDOW_END: the running window of the scan in flight ends with a count of disagreements (R105). Without a scan in
flight, or without lock, no window runs (log 14, log 21). -/
def execScanWindowEnd (i : LaneId) (d : Side) (count : Nat) (s : State) : Host.Outcome State Fault Refusal :=
  if (s.half i d).scan.inFlight.isSome = true ∧ s.locked i d = true then
    .next (engineEvent s (s.applyOut i d ((s.half i d).windowEnd (s.ctx i d) count)))
  else .next s

end Sys2Proof.Machine
end

