-- ==== Sys2Proof/Machine/LaneEvents.lean ====
section
/-! DEFINITION. The events a lane takes of its own: a retrain request of the watch, its case of an apply, and its operation
of an action (R20, R49, R139, R148). -/

namespace Sys2Proof.Machine

/-- A watch retrain taken in CARRY: TRAIN fresh, counted (R49). -/
def Lane.watchRetrain (cfg : LegConfig) (l : Lane) : Lane :=
  { l.trainFresh cfg with retrains := satInc counterMax l.retrains }

/-- WATCH_RETRAIN_REQUEST: a request that waits is taken if the lane is in CARRY; otherwise it counts nothing (R49, R139;
log 15). -/
def execWatchRetrainRequest (i : LaneId) (s : State) : Host.Outcome State Fault Refusal :=
  if (s.lane i).retrainRequested = true ∧ (s.lane i).state = .carry then
    .next (engineEvent s (s.moveLane i fun l => l.watchRetrain (s.legConfig i)))
  else .next (s.setLane i { s.lane i with retrainRequested := false })

/-- APPLY_LANE_CASE: the lane takes the first of the cases that wait (R19, R20). -/
def execApplyLaneCase (i : LaneId) (s : State) : Host.Outcome State Fault Refusal :=
  if (s.lane i).cases = [] then .next s
  else
    .next (engineEvent s
      (s.moveLane i fun l => l.takeCase (s.legConfig i) (s.route.get i).switchLane))

/-- The operation that waits behind mask bit `b` of port `p`'s action. -/
def State.handedAt (s : State) (p : PortId) (b : Fin 8) : Option HandedOp :=
  (s.port p).handed.find? fun op => decide (op.bit = b)

/-- ACTION_LANE_OPERATION: the lane behind mask bit `b` takes the operation it was handed (R148, R159). -/
def execActionLaneOperation (p : PortId) (b : Fin 8) (s : State) : Host.Outcome State Fault Refusal :=
  match s.handedAt p b with
  | none => .next s
  | some op => .next (engineEvent s (s.takeHanded p op))

end Sys2Proof.Machine
end

