-- ==== Sys2Proof/Machine/BusEvents.lean ====
section
/-! DEFINITION. The bus side of a port (sections 8.1 to 8.3): starts, bytes, and the ends of parts. An event that the port's
phase does not admit has no effect (log 21). -/

namespace Sys2Proof.Machine

/-- The address of every port (R161). -/
def portAddress : BitVec 7 := 0x3A#7

/-- The phase that an address byte naming the port gives (R162). -/
def startPhase (dir : BusDir) : PortPhase :=
  match dir with
  | .write => .pointerHigh
  | .read => .reading

/-- BUS_START_ADDRESS: a start or repeated start and its address byte. A part under way ends first (R162, R165, R167). Any
other address is not acknowledged, and a port that does not acknowledge takes nothing (R161). -/
def execBusStartAddress (p : PortId) (addr : BitVec 7) (dir : BusDir) (s : State) : Host.Outcome State Fault Refusal :=
  if acknowledges s p = true then
    let s := endPart (settleHanded s p) p
    if addr = portAddress then .next (s.setPort p { s.port p with phase := startPhase dir, line := .ack })
    else .next (s.setPort p { s.port p with phase := .idle, line := .released })
  else .next s

/-- POINTER_BYTE: the high byte is held; the low byte sets the pointer (R162, R163). -/
def execPointerByte (p : PortId) (b : Byte) (s : State) : Host.Outcome State Fault Refusal :=
  match (s.port p).phase with
  | .pointerHigh => .next (s.setPort p { s.port p with phase := .pointerLow b, line := .ack })
  | .pointerLow high => .next (s.setPort p { s.port p with phase := .writing, pointer := high ++ b, line := .ack })
  | _ => .next s

/-- DATA_BYTE_WRITTEN: the byte is placed in the holding buffer, and the offset advances (R162, R163, R166). -/
def execDataByteWritten (p : PortId) (b : Byte) (s : State) : Host.Outcome State Fault Refusal :=
  match (s.port p).phase with
  | .writing =>
    let x := s.port p
    .next (s.setPort p { x with buffer := x.buffer.put x.pointer b, pointer := advance x.pointer, line := .ack })
  | _ => .next s

/-- The snapshot a byte of a read part is served from: the one captured at the part's first byte (R164). -/
def currentSnapshot (s : State) (p : PortId) : Snapshot :=
  (s.port p).snapshot.getD (capture s p (pointerBlock (s.port p).pointer))

/-- READ_BYTE_SENT: the next byte is served from the snapshot, and the offset advances (R163, R164). A byte of a refused
group is remembered for the end of the part (R180). -/
def execReadByteSent (p : PortId) (s : State) : Host.Outcome State Fault Refusal :=
  match (s.port p).phase with
  | .reading =>
    let x := s.port p
    let snap := currentSnapshot s p
    let off := pointerOffset x.pointer
    .next (s.setPort p { x with
      snapshot := some snap
      sentRefused := x.sentRefused || snap.refused.getD off false
      line := .data (snap.bytes.getD off 0)
      pointer := advance x.pointer })
  | _ => .next s

/-- HOST_NACK: the host does not acknowledge the byte sent; the read part ends and the port releases the data line (R162,
R165; log 20). -/
def execHostNack (p : PortId) (s : State) : Host.Outcome State Fault Refusal :=
  if (s.port p).phase = .reading ∧ (s.port p).snapshot.isSome = true then .next (endReadPart s p .readEnded)
  else .next s

/-- The port is in a read part. -/
def PortPhase.isRead (x : PortPhase) : Bool :=
  match x with
  | .reading => true
  | .readEnded => true
  | _ => false

/-- The port is in a write part. -/
def PortPhase.isWrite (x : PortPhase) : Bool :=
  match x with
  | .pointerHigh => true
  | .pointerLow _ => true
  | .writing => true
  | _ => false

/-- READ_PART_END: a stop in a read part (R162, R165, R180). -/
def execReadPartEnd (p : PortId) (s : State) : Host.Outcome State Fault Refusal :=
  if (s.port p).phase.isRead = true then .next (endReadPart s p .idle) else .next s

/-- REGISTER_WRITE: a stop in a write part; the buffer is taken (R167). -/
def execRegisterWrite (p : PortId) (later : BitVec 8) (s : State) : Host.Outcome State Fault Refusal :=
  if (s.port p).phase.isWrite = true then .next (endWritePart s p later) else .next s

end Sys2Proof.Machine
end

