-- ==== Sys2Proof/Machine/WriteEvents.lean ====
section
/-! DEFINITION. Write stops that the table lists as rows of their own: those of the COUNTS, BITMAP and MASK groups, and one
that issues each action (R144, R167, R181, R184). Each is the write stop of REGISTER_WRITE with the bytes the operands
give (log 11). `later` names the lanes that take their operation as an event of their own (R148; log 10). -/

namespace Sys2Proof.Machine

/-- COUNTS_ZERO: a write of the COUNTS group (R181). -/
def execCountsZero (p : PortId) (refused busy unmapped : Option Byte) (s : State) : Host.Outcome State Fault Refusal :=
  .next (hostWrite s p 0x31 (optionalEntries 0x04 [refused, busy, unmapped]) 0)

/-- BITMAP_CLEAR: a write of the BITMAP group clears the flags written as one (R184). -/
def execBitmapClear (p : PortId) (flags : BitVec 20) (s : State) : Host.Outcome State Fault Refusal :=
  .next (hostWrite s p 0x32 (flagEntries 0x00 flags) 0)

/-- ALERT_MASK_WRITE: a write of the MASK group stores the mask (R184). -/
def execAlertMaskWrite (p : PortId) (mask : BitVec 20) (s : State) : Host.Outcome State Fault Refusal :=
  .next (hostWrite s p 0x32 (flagEntries 0x04 mask) 0)

/-- ACTION_RESERVED: a write of the code NONE or of a reserved code is refused whole (R145). -/
def execActionReserved (p : PortId) (code : Byte) (args : ActionArgs) (s : State) : Host.Outcome State Fault Refusal :=
  .next (issueCode s p code args 0)

/-- RETRAIN (R149, R50). -/
def execRetrain (p : PortId) (args : ActionArgs) (later : BitVec 8) (s : State) : Host.Outcome State Fault Refusal :=
  .next (issueAction s p .retrain args later)

/-- HOLD (R150, R51). -/
def execHold (p : PortId) (args : ActionArgs) (later : BitVec 8) (s : State) : Host.Outcome State Fault Refusal :=
  .next (issueAction s p .hold args later)

/-- RELEASE (R151, R52). -/
def execRelease (p : PortId) (args : ActionArgs) (later : BitVec 8) (s : State) : Host.Outcome State Fault Refusal :=
  .next (issueAction s p .release args later)

/-- MEASURE (R154). -/
def execMeasure (p : PortId) (args : ActionArgs) (later : BitVec 8) (s : State) : Host.Outcome State Fault Refusal :=
  .next (issueAction s p .measure args later)

/-- SAVE (R70, R153). -/
def execSave (p : PortId) (args : ActionArgs) (later : BitVec 8) (s : State) : Host.Outcome State Fault Refusal :=
  .next (issueAction s p .save args later)

/-- RESTORE (R68, R153). -/
def execRestore (p : PortId) (args : ActionArgs) (later : BitVec 8) (s : State) : Host.Outcome State Fault Refusal :=
  .next (issueAction s p .restore args later)

/-- DISCARD (R67, R153). -/
def execDiscard (p : PortId) (args : ActionArgs) (later : BitVec 8) (s : State) : Host.Outcome State Fault Refusal :=
  .next (issueAction s p .discard args later)

/-- STEP (R65, R153). -/
def execStep (p : PortId) (args : ActionArgs) (later : BitVec 8) (s : State) : Host.Outcome State Fault Refusal :=
  .next (issueAction s p .step args later)

/-- PRESET (R69, R153). -/
def execPreset (p : PortId) (args : ActionArgs) (later : BitVec 8) (s : State) : Host.Outcome State Fault Refusal :=
  .next (issueAction s p .preset args later)

/-- CLEAR_COUNTERS (R152). -/
def execClearCounters (p : PortId) (args : ActionArgs) (later : BitVec 8) (s : State) : Host.Outcome State Fault Refusal :=
  .next (issueAction s p .clearCounters args later)

/-- FREEZE (R140, R155). -/
def execFreeze (p : PortId) (args : ActionArgs) (s : State) : Host.Outcome State Fault Refusal :=
  .next (issueAction s p .freeze args 0)

/-- THAW (R141, R155). -/
def execThaw (p : PortId) (args : ActionArgs) (s : State) : Host.Outcome State Fault Refusal :=
  .next (issueAction s p .thaw args 0)

/-- APPLY_PROFILE (R14, R16, R156). -/
def execApplyProfile (p : PortId) (args : ActionArgs) (s : State) : Host.Outcome State Fault Refusal :=
  .next (issueAction s p .applyProfile args 0)

/-- SOFT_RESET (R157, R59). -/
def execSoftReset (p : PortId) (args : ActionArgs) (s : State) : Host.Outcome State Fault Refusal :=
  .next (issueAction s p .softReset args 0)

end Sys2Proof.Machine
end

