-- ==== Sys2Proof/Machine/Dispatch.lean ====
section
/-! DEFINITION. The effect of every command: one arm per constructor of Instr. -/

namespace Sys2Proof.Machine

/-- The command's effect on everything but the queue. -/
def exec (i : Instr) (s : State) : Host.Outcome State Fault Refusal :=
  match i with
  | .powerOn sl ll => Sys2Proof.Machine.execPowerOn sl ll s
  | .switchResetAsserted => Sys2Proof.Machine.execSwitchResetAsserted s
  | .switchResetReleased => Sys2Proof.Machine.execSwitchResetReleased s
  | .imageLoadComplete img => Sys2Proof.Machine.execImageLoadComplete img s
  | .legResetAsserted k => Sys2Proof.Machine.execLegResetAsserted k s
  | .legResetReleased k => Sys2Proof.Machine.execLegResetReleased k s
  | .signalLost r => Sys2Proof.Machine.execSignalLost r s
  | .lockLost r => Sys2Proof.Machine.execLockLost r s
  | .lockRegained r => Sys2Proof.Machine.execLockRegained r s
  | .frameReceived r bits => Sys2Proof.Machine.execFrameReceived r bits s
  | .tAcquireExpiry j d => Sys2Proof.Machine.execTAcquireExpiry j d s
  | .tRelockExpiry j d => Sys2Proof.Machine.execTRelockExpiry j d s
  | .tTuneExpiry j d => Sys2Proof.Machine.execTTuneExpiry j d s
  | .tReplyExpiry j d => Sys2Proof.Machine.execTReplyExpiry j d s
  | .tSettleExpiry j d => Sys2Proof.Machine.execTSettleExpiry j d s
  | .tQuietExpiry j => Sys2Proof.Machine.execTQuietExpiry j s
  | .watchPeriodExpiry => Sys2Proof.Machine.execWatchPeriodExpiry s
  | .scanWindowEnd j d count => Sys2Proof.Machine.execScanWindowEnd j d count s
  | .watchRetrainRequest j => Sys2Proof.Machine.execWatchRetrainRequest j s
  | .applyLaneCase j => Sys2Proof.Machine.execApplyLaneCase j s
  | .actionLaneOperation p b => Sys2Proof.Machine.execActionLaneOperation p b s
  | .busStartAddress p addr dir => Sys2Proof.Machine.execBusStartAddress p addr dir s
  | .pointerByte p b => Sys2Proof.Machine.execPointerByte p b s
  | .dataByteWritten p b => Sys2Proof.Machine.execDataByteWritten p b s
  | .readByteSent p => Sys2Proof.Machine.execReadByteSent p s
  | .hostNack p => Sys2Proof.Machine.execHostNack p s
  | .readPartEnd p => Sys2Proof.Machine.execReadPartEnd p s
  | .registerWrite p later => Sys2Proof.Machine.execRegisterWrite p later s
  | .countsZero p refused busy unmapped => Sys2Proof.Machine.execCountsZero p refused busy unmapped s
  | .bitmapClear p flags => Sys2Proof.Machine.execBitmapClear p flags s
  | .alertMaskWrite p mask => Sys2Proof.Machine.execAlertMaskWrite p mask s
  | .actionReserved p code args => Sys2Proof.Machine.execActionReserved p code args s
  | .retrain p args later => Sys2Proof.Machine.execRetrain p args later s
  | .hold p args later => Sys2Proof.Machine.execHold p args later s
  | .release p args later => Sys2Proof.Machine.execRelease p args later s
  | .measure p args later => Sys2Proof.Machine.execMeasure p args later s
  | .save p args later => Sys2Proof.Machine.execSave p args later s
  | .restore p args later => Sys2Proof.Machine.execRestore p args later s
  | .discard p args later => Sys2Proof.Machine.execDiscard p args later s
  | .step p args later => Sys2Proof.Machine.execStep p args later s
  | .preset p args later => Sys2Proof.Machine.execPreset p args later s
  | .clearCounters p args later => Sys2Proof.Machine.execClearCounters p args later s
  | .freeze p args => Sys2Proof.Machine.execFreeze p args s
  | .thaw p args => Sys2Proof.Machine.execThaw p args s
  | .applyProfile p args => Sys2Proof.Machine.execApplyProfile p args s
  | .softReset p args => Sys2Proof.Machine.execSoftReset p args s
  | .signalPresent r => Sys2Proof.Machine.execSignalPresent r s

end Sys2Proof.Machine
end

