-- ==== Sys2Proof/Safety.lean ====
section
/-! DEFINITION. The laws the manual says hold at all times, as tests of a state, and the terms in which the statements say
what a command does and what it leaves alone. -/

namespace Sys2Proof.Machine

/-! ## The law of the setting and of the stack (R61, R64) -/

/-- A Transmit Setting Unit obeys the law of the setting, in its current setting and in every stack entry, and the law of
the stack (R61, R64). -/
def TxUnit.lawful (u : TxUnit) : Bool :=
  u.current.lawful && u.stack.all Setting.lawful && decide (u.stack.length ≤ stackLimit)

/-- Every transmitter obeys them. -/
abbrev State.settingLaw (s : State) : Prop := ∀ i : LaneId, (s.half i .S).tx.lawful = true ∧ (s.half i .C).tx.lawful = true

/-! ## The laws of the hold set, of the failure count and of the segments (R28 to R51) -/

/-- A lane with a non-empty hold set is in DOWN, and a lane in OFF has an empty hold set (R51). -/
abbrev Lane.holdLaw (l : Lane) : Prop :=
  (l.hold.isEmpty = false → l.state = .down) ∧ (l.state = .off → l.hold.isEmpty = true)

/-- The failure count lies in 0 to 4, and equals 4 only in FAULT (R44). -/
abbrev Lane.failureLaw (l : Lane) : Prop := l.fc ≤ 4 ∧ (l.fc = 4 → l.state = .fault)

/-- Every lane obeys both. -/
abbrev State.laneLaw (s : State) : Prop := ∀ i : LaneId, (s.lane i).holdLaw ∧ (s.lane i).failureLaw

/-- What the segments of a lane may be in its state: IDLE in OFF, DOWN, WAIT and FAULT (R39); in TRAIN running, and not both
DONE (R42, R43); in READY and CARRY both DONE (R43, R55). -/
def Lane.segmentLaw (l : Lane) : Bool :=
  match l.state with
  | .train => decide (l.s.seg.state ≠ .idle) && decide (l.c.seg.state ≠ .idle) &&
      !(decide (l.s.seg.state = .done) && decide (l.c.seg.state = .done))
  | .ready => decide (l.s.seg.state = .done) && decide (l.c.seg.state = .done)
  | .carry => decide (l.s.seg.state = .done) && decide (l.c.seg.state = .done)
  | _ => decide (l.s.seg.state = .idle) && decide (l.c.seg.state = .idle)

/-- A segment in DETECT has no partner session, no flag of the exchange, no request, no stored reply and no search (R32, R91,
R94, R96, R97, R129). -/
def Half.detectLaw (h : Half) : Bool :=
  decide (h.seg.state = .detect → h.seg.partner = none ∧ h.seg.synchronised = false ∧ h.seg.ownReady = false ∧
    h.seg.partnerReady = false ∧ h.req = Requester.reset ∧ h.resp = ⟨none, .none⟩ ∧ h.search = Search.reset)

/-- Every segment obeys it. -/
abbrev State.detectLaw (s : State) : Prop :=
  ∀ i : LaneId, (s.half i .S).detectLaw = true ∧ (s.half i .C).detectLaw = true

/-- Every lane obeys it. -/
abbrev State.segmentLaw (s : State) : Prop := ∀ i : LaneId, (s.lane i).segmentLaw = true

/-! ## The laws of the route map and of the leg (R11, R12, R40, R54, R55) -/

/-- The route table and its inverse are those of the wiring record and the current profile (R10, R11, R12). -/
abbrev State.routeLaw (s : State) : Prop :=
  s.route = routeTable s.wiring s.current ∧ s.inverse = inverseTable s.route

/-- Cable lane `i` belongs to a leg that the current profile enables. -/
def State.serves (s : State) (i : LaneId) : Bool :=
  match s.legOf i with
  | some k => (s.current.legs.get k).enabled
  | none => false

/-- A lane is in OFF exactly while it belongs to no enabled leg, and then no case of an apply waits for it (R18, R40); a leg
is DISABLED exactly while it is not enabled (R54); outside RUNNING no leg is enabled (R6, R58). -/
abbrev State.offLaw (s : State) : Prop :=
  (∀ i : LaneId, (s.lane i).state = .off ↔ s.serves i = false) ∧
  (∀ i : LaneId, (s.lane i).state = .off → (s.lane i).cases = []) ∧
  (∀ k : LegId, s.legState.get k = .disabled ↔ (s.current.legs.get k).enabled = false) ∧
  (s.part ≠ .running → ∀ k : LegId, (s.current.legs.get k).enabled = false)

/-- The leg of a lane is LIVE. -/
def State.legLive (s : State) (i : LaneId) : Bool :=
  match s.legOf i with
  | some k => decide (s.legState.get k = .live)
  | none => false

/-- A lane is in CARRY only while its leg is LIVE, and a LIVE leg has every one of its lanes in CARRY (R55). -/
abbrev State.carryLaw (s : State) : Prop := ∀ i : LaneId, (s.lane i).state = .carry ↔ s.legLive i = true

/-- The laws of the route map and of the leg together. -/
abbrev State.legLaw (s : State) : Prop := s.routeLaw ∧ s.offLaw ∧ s.carryLaw

/-- A wiring record in force: at most four legs, a present leg of 1, 2, 4 or 8 lanes, an absent one of none, and no cable
lane twice (R1, R2). The record without legs of IMAGE_FAULT is one too. -/
def Wiring.lawful (w : Wiring) : Bool :=
  decide (w.legCount ≤ 4) &&
    (Tab.indices 4).all (fun k => if w.present k then laneCountOk (w.laneCount k) else (w.legs.get k).isEmpty) &&
    decide (w.legs.list.flatten.Nodup)

/-- The wiring record is lawful, and the current profile passes the validation of R13 against it: what the law of the route
map rests on (R2, R11, R15, R16). -/
abbrev State.mapLaw (s : State) : Prop := s.wiring.lawful = true ∧ validate s.wiring s.current = none

/-- A lane operation handed out through a leg's port is one of a lane of that leg, and outside RUNNING none is out (R146,
R150, R158; log 10). -/
abbrev State.handedLaw (s : State) : Prop :=
  (∀ k : LegId, ∀ op ∈ (s.port (legPort k)).handed, s.legOf op.lane = some k) ∧
    (s.part ≠ .running → ∀ p : PortId, (s.port p).handed = [])

/-- Every lane that the wiring lists for a leg belongs to that leg in the route table (R3, R10). -/
abbrev State.wiringLaw (s : State) : Prop :=
  ∀ (k : LegId) (i : LaneId), (s.wiring.legs.get k).contains i = true → s.legOf i = some k

/-! ## Laws of ports, counters, configuration and readings -/

/-- A port's change bitmap marks only groups its view maps (R182). -/
abbrev State.bitmapLaw (s : State) : Prop :=
  ∀ (p : PortId) (g : ChangeGroup), (s.port p).bitmap.getLsbD g.val = true → groupMapped s p g = true

/-- Every holding buffer is canonical (R166). -/
abbrev State.bufferLaw (s : State) : Prop := ∀ p : PortId, (s.port p).buffer.wf = true

/-- The counters of one side are within their ranges (R57, R103, R130). -/
abbrev Half.countersLaw (h : Half) : Prop :=
  h.frameErrors ≤ counterMax ∧ h.watchAlarms ≤ counterMax ∧ h.scan.count ≤ counterMax ∧ h.watch.low ≤ lowMax

/-- The counters of a lane are within their ranges (R57). -/
abbrev Lane.countersLaw (l : Lane) : Prop :=
  l.trainings ≤ counterMax ∧ l.failures ≤ counterMax ∧ l.drops ≤ counterMax ∧ l.retrains ≤ counterMax ∧
    l.s.countersLaw ∧ l.c.countersLaw

/-- The counts of a port status are within their ranges (R180). -/
abbrev PortStatus.countsLaw (x : PortStatus) : Prop :=
  x.refused ≤ statusMax ∧ x.busy ≤ statusMax ∧ x.unmapped ≤ statusMax

/-- Every counter is within its range. -/
abbrev State.counterLaw (s : State) : Prop :=
  (∀ i : LaneId, (s.lane i).countersLaw) ∧ ∀ p : PortId, (s.port p).status.countsLaw

/-- The configuration fields are within the ranges they are clamped to (R24, R112, R131). -/
abbrev State.configLaw (s : State) : Prop :=
  (∀ k : LegId, (s.legs.get k).threshold ≤ 186) ∧ s.hysteresis ≤ 7 ∧ (1 ≤ s.pWatch ∧ s.pWatch ≤ 255) ∧ s.dDrop ≤ 63 ∧
    (1 ≤ s.kAlarm ∧ s.kAlarm ≤ 15)

/-- The fixed positions of the policy table read REFUSE (R176). -/
abbrev State.policyLaw (s : State) : Prop :=
  s.policy.write &&& ~~~writeConfigurable = 0 ∧ s.policy.actions &&& ~~~actionConfigurable = 0

/-- A figure of merit is NO READING or at most 186 (R111). -/
def fomOk (x : Fom) : Bool :=
  match x with
  | some f => decide (f ≤ 186)
  | none => true

/-- A scan in flight has ended at most five edges, each at most 31, and its window is at an offset from 1 to 31 (R105). -/
def scanOk (x : Option Scan) : Bool :=
  match x with
  | some sc => decide (sc.edges.length ≤ 5) && sc.edges.all (fun e => decide (e ≤ 31)) && decide (1 ≤ sc.offset) &&
      decide (sc.offset ≤ 31)
  | none => true

/-- Every figure of merit a side holds is in range, and so are its scan and its last reading (R105, R111). -/
def Half.readingLaw (h : Half) : Bool :=
  scanOk h.scan.inFlight && h.scan.last.edges.all (fun e => decide (e ≤ 31)) && fomOk h.scan.last.fom &&
    fomOk h.seg.finalFom && fomOk h.search.reference && fomOk h.search.trialReading && fomOk h.watch.baseline

/-- Every side obeys it. -/
abbrev State.readingLaw (s : State) : Prop :=
  ∀ i : LaneId, (s.half i .S).readingLaw = true ∧ (s.half i .C).readingLaw = true

/-! ## What a command leaves alone -/

/-- The state with every change bitmap cleared: two states that agree in it agree in everything but the bitmaps. -/
def State.quiet (s : State) : State := { s with ports := s.ports.mapIdx fun _ x => { x with bitmap := 0 } }

/-- The state with the lanes, the leg states and the change bitmaps set aside: what an event at lanes leaves alone. -/
def State.offLanes (s : State) : State :=
  { s.quiet with lanes := Tab.fill 8 .reset, legState := Tab.fill 4 .disabled }

/-- The state with one port's action block, handed operations, status and bitmap set aside. -/
def State.offAction (s : State) (p : PortId) : State :=
  s.setPort p { s.port p with action := .reset, handed := [], status := .cleared, bitmap := 0 }

/-! ## What happens to lanes -/

/-- A drop, as the lane's fields show it (R48, R42, R32). -/
abbrev Lane.dropsTo (l l' : Lane) : Prop :=
  l'.state = .train ∧ l'.drops = satInc counterMax l.drops ∧ l'.trainings = satInc counterMax l.trainings ∧
    l'.failures = l.failures ∧ l'.retrains = l.retrains ∧ l'.fc = l.fc ∧ l'.hold = l.hold ∧
    ∀ e : Bool, let d := if e then Side.S else Side.C
      (l'.half d).seg.state = .detect ∧ (l'.half d).seg.own = (l.half d).seg.own + 1 ∧
      (l'.half d).seg.partner = none ∧ (l'.half d).seg.reason = (l.half d).seg.reason

/-- A segment failure of side `d` with reason `r`, as the lane's fields show it (R37, R39, R44, R45). -/
abbrev Lane.failsTo (l l' : Lane) (d : Side) (r : FailReason) : Prop :=
  l'.fc = l.fc + 1 ∧ l'.state = (if l.fc + 1 < 4 then .wait else .fault) ∧
    l'.tQuiet = (if l.fc + 1 < 4 then some 100 else none) ∧ l'.failures = satInc counterMax l.failures ∧
    l'.trainings = l.trainings ∧ l'.drops = l.drops ∧ l'.retrains = l.retrains ∧ l'.hold = l.hold ∧
    (l'.half d).seg.reason = r ∧ (l'.half (Side.opposite d)).seg.reason = (l.half (Side.opposite d)).seg.reason ∧
    ∀ e : Bool, let f := if e then Side.S else Side.C
      (l'.half f).seg.state = .idle ∧ (l'.half f).tx = (l.half f).tx ∧ (l'.half f).seg.own = (l.half f).seg.own

/-- The Leg Engine's response to lane `i` of leg `k` leaving CARRY: the leg's other CARRY lanes go to READY, the leg is
FORMING, and every other lane and leg is left alone (R56). -/
abbrev pulledBack (s t : State) (i : LaneId) (k : LegId) : Prop :=
  (∀ j, j ≠ i → s.legOf j = some k → (s.lane j).state = .carry → t.lane j = (s.lane j).pullBack) ∧
    (∀ j, j ≠ i → s.legOf j ≠ some k ∨ (s.lane j).state ≠ .carry → t.lane j = s.lane j) ∧
    t.legState = s.legState.set k .forming

/-- Every lane but `i`, and every leg state, is left alone. -/
abbrev onlyLane (s t : State) (i : LaneId) : Prop := (∀ j, j ≠ i → t.lane j = s.lane j) ∧ t.legState = s.legState

/-! ## Actions -/

/-- No two lane numbers of a port's view name one cable lane (R11, R21). -/
abbrev viewOnce (s : State) (p : PortId) : Prop :=
  ∀ (b b' : Fin 8) (i : LaneId), viewLane s p b = some i → viewLane s p b' = some i → b = b'

/-- An action of the given code through port `p` reaches its lanes: the port acknowledges (R161), no operation of an
earlier action is still out (R144), and the Access Policy Unit allows the write of the request fields (R177) and the
action (R179). -/
abbrev actionReady (s : State) (p : PortId) (code : Nat) : Prop :=
  acknowledges s p = true ∧ (s.port p).handed = [] ∧ judgeWrite s p .action .request = .allow ∧
    judgeAction s p code = .allow

/-- Mask bit `b` of the request names cable lane `i` (R146). -/
abbrev names (s : State) (p : PortId) (args : ActionArgs) (b : Fin 8) (i : LaneId) : Prop :=
  args.mask.getLsbD b.val = true ∧ viewLane s p b = some i

/-- The request fields, the outcomes of bits that name nothing or nothing mapped, the overall outcome and the port status
after an action that used the mask and reached its lanes in its own event (R143, R146, R147, R180). -/
abbrev actionReported (s t : State) (p : PortId) (code : Nat) (args : ActionArgs) : Prop :=
  (t.port p).action.code = byte code ∧ (t.port p).action.args = args ∧ (t.port p).handed = [] ∧
    (∀ b : Fin 8, args.mask.getLsbD b.val = false → (t.port p).action.perLane.get b = .none) ∧
    (∀ b : Fin 8, args.mask.getLsbD b.val = true → viewLane s p b = none →
      (t.port p).action.perLane.get b = .notMapped) ∧
    (t.port p).action.overall = overallOf args.mask (t.port p).action.perLane ∧
    (t.port p).status = { (s.port p).status with
      last := .ok, refused := min 255 (s.port p).status.refused, busy := min 255 (s.port p).status.busy,
      discarded := none }

/-- An action that ignores the mask has been taken with an overall outcome (R147, R180). -/
abbrev partReported (s t : State) (p : PortId) (code : Nat) (args : ActionArgs) (overall : Overall) : Prop :=
  (t.port p).action = ⟨byte code, args, overall, Tab.fill 8 .none⟩ ∧
    (t.port p).status = { (s.port p).status with
      last := .ok, refused := min 255 (s.port p).status.refused, busy := min 255 (s.port p).status.busy,
      discarded := none }

/-- Lanes that an action taking lanes out of CARRY does not name: left alone, but those in CARRY beside a named lane, which
the Leg Engine pulls back to READY; legs without a named lane keep their state (R56, R148). -/
abbrev besideNamed (s t : State) (p : PortId) (args : ActionArgs) : Prop :=
  (∀ j, (∀ b, ¬ names s p args b j) →
    ((s.lane j).state ≠ .carry ∨ (∀ b i, names s p args b i → s.legOf i ≠ s.legOf j) → t.lane j = s.lane j) ∧
    (∀ b i, (s.lane j).state = .carry → names s p args b i → s.legOf i = s.legOf j →
      t.lane j = (s.lane j).pullBack)) ∧
  (∀ k, (∀ b i, names s p args b i → s.legOf i ≠ some k) → t.legState.get k = s.legState.get k)

/-- A lane operation that waited has been taken with an outcome: it waits no more, the outcome stands at its mask bit, the
overall outcome is derived when no operation of the action is left, and nothing else of any port or of the configuration
changes (R147, R148; log 10). -/
abbrev handedTaken (s t : State) (p : PortId) (op : HandedOp) (o : LaneOutcome) : Prop :=
  (t.port p).handed = (s.port p).handed.filter (fun x => decide (x ≠ op)) ∧
    (t.port p).action = { (s.port p).action with
      perLane := (s.port p).action.perLane.set op.bit o
      overall := if (t.port p).handed = [] then
          overallOf (s.port p).action.args.mask ((s.port p).action.perLane.set op.bit o)
        else (s.port p).action.overall } ∧
    (t.port p).status = (s.port p).status ∧ (t.offLanes).offAction p = (s.offLanes).offAction p

/-- The action that a command issues: the port, the code byte and the request fields (R144). -/
def issuedAction (c : Instr) : Option (PortId × Byte × ActionArgs) :=
  match c with
  | .actionReserved p code args => some (p, code, args)
  | .retrain p args _ => some (p, 1, args)
  | .hold p args _ => some (p, 2, args)
  | .release p args _ => some (p, 3, args)
  | .measure p args _ => some (p, 4, args)
  | .save p args _ => some (p, 5, args)
  | .restore p args _ => some (p, 6, args)
  | .discard p args _ => some (p, 7, args)
  | .step p args _ => some (p, 8, args)
  | .preset p args _ => some (p, 9, args)
  | .clearCounters p args _ => some (p, 10, args)
  | .freeze p args => some (p, 11, args)
  | .thaw p args => some (p, 12, args)
  | .applyProfile p args => some (p, 13, args)
  | .softReset p args => some (p, 14, args)
  | _ => none

/-- The lanes that a command which issues an action has take their operation as an event of its own (log 10). -/
def issuedLater (c : Instr) : BitVec 8 :=
  match c with
  | .retrain _ _ later => later
  | .hold _ _ later => later
  | .release _ _ later => later
  | .measure _ _ later => later
  | .save _ _ later => later
  | .restore _ _ later => later
  | .discard _ _ later => later
  | .step _ _ later => later
  | .preset _ _ later => later
  | .clearCounters _ _ later => later
  | _ => 0

/-- The state with port `p`'s request fields stored (R143). -/
def State.withRequest (s : State) (p : PortId) (code : Byte) (args : ActionArgs) : State :=
  s.setPort p { s.port p with action := { (s.port p).action with code := code, args := args } }

/-- The port whose host sends a command, if a host does. -/
def commandPort (c : Instr) : Option PortId :=
  match c with
  | .actionLaneOperation p _ => some p
  | .busStartAddress p _ _ => some p
  | .pointerByte p _ => some p
  | .dataByteWritten p _ => some p
  | .readByteSent p => some p
  | .hostNack p => some p
  | .readPartEnd p => some p
  | .registerWrite p _ => some p
  | .countsZero p _ _ _ => some p
  | .bitmapClear p _ => some p
  | .alertMaskWrite p _ => some p
  | .actionReserved p _ _ => some p
  | .retrain p _ _ => some p
  | .hold p _ _ => some p
  | .release p _ _ => some p
  | .measure p _ _ => some p
  | .save p _ _ => some p
  | .restore p _ _ => some p
  | .discard p _ _ => some p
  | .step p _ _ => some p
  | .preset p _ _ => some p
  | .clearCounters p _ _ => some p
  | .freeze p _ => some p
  | .thaw p _ => some p
  | .applyProfile p _ => some p
  | .softReset p _ => some p
  | _ => none

end Sys2Proof.Machine
end

