-- ==== Sys2Proof/Certificates/Slice0/Obligations.lean ====
section
/-! DEFINITION. The statements for the provers, one definition each. OBLIGATIONS.json gives their titles and sources. -/

open Sys2Proof Sys2Proof.Machine

/-! ## The queue -/

/-- A step takes the command at the front of the queue and runs it with the queue's rest; an empty queue idles (log 1).
-/
def Obligations.StepTakesTheFrontCommand : Prop :=
  ∀ (c : Instr) (s : State),
    Machine.step { s with pending := c :: s.pending } = exec c s ∧
    Machine.step { s with pending := [] } = .next { s with pending := [] }

/-- Every command completes, and none touches the queue. That a command which the state does not admit has no effect is
the model's reading (log 21). -/
def Obligations.CommandsLeaveTheQueueAlone : Prop :=
  ∀ (c : Instr) (s : State), ∃ t, exec c s = .next t ∧ t.pending = s.pending

/-! ## Reset and start-up -/

/-- Every law that the later statements carry through a step holds right after reset. The configuration it holds is the
model's choice (log 5). -/
def Obligations.LawsHoldAtReset : Prop :=
  State.reset.settingLaw ∧ State.reset.laneLaw ∧ State.reset.segmentLaw ∧ State.reset.detectLaw ∧ State.reset.legLaw ∧
    State.reset.bitmapLaw ∧ State.reset.bufferLaw ∧ State.reset.counterLaw ∧ State.reset.configLaw ∧
    State.reset.policyLaw ∧ State.reset.readingLaw ∧ State.reset.wiringLaw ∧ State.reset.mapLaw ∧
    State.reset.handedLaw

/-- The values the manual gives for power-on stand in `State.reset` (R28, R31, R54, R76, R87, R91, R94, R100, R102,
R103, R129, R130, R143, R173, R181, R182). POWER_ON and SWITCH_RESET_ASSERTED put every block at the values of
`State.reset`, in LOADING; a load runs after power-on exactly if the switch reset line is released, and none while it is
asserted (R187). The queue, the reset lines' levels and the receivers' signal and lock belong to the outside (log 4, log
7), and the store keeps its image (log 38). SWITCH_RESET_RELEASED begins a load. The values of `State.reset` that the
manual does not give are the model's (log 5, log 36). -/
def Obligations.ResetsClearThePart : Prop :=
  (State.reset.part = .loading ∧ State.reset.faultCause = .none ∧ State.reset.freeze = false ∧
    State.reset.watchTimer = none ∧
    (∀ k : LegId, State.reset.legState.get k = .disabled ∧
      State.reset.busy.get k = ⟨false, false, false, false⟩) ∧
    (∀ i : LaneId, let l := State.reset.lane i;
      l.state = .off ∧ l.hold = ⟨false, false, false⟩ ∧ l.fc = 0 ∧ l.trainings = 0 ∧ l.failures = 0 ∧ l.drops = 0 ∧
        l.retrains = 0 ∧ l.tQuiet = none) ∧
    (∀ (i : LaneId) (e : Bool), let h := State.reset.half i (if e then .S else .C);
      h.seg.state = .idle ∧ h.seg.own = 0 ∧ h.seg.partner = none ∧ h.seg.reason = .none ∧
        h.seg.polaritySuspect = false ∧ h.seg.marginal = false ∧ h.seg.tAcquire = none ∧ h.seg.tRelock = none ∧
        h.seg.tTune = none ∧ h.seg.synchronised = false ∧ h.seg.finalFom = none ∧ h.tx = ⟨presetSetting 0, []⟩ ∧
        h.resp.lastTag = none ∧ h.req.outstanding = none ∧ h.req.nextTag = 0 ∧ h.search.phase = .none ∧
        h.scan.inFlight = none ∧ h.scan.count = 0 ∧ h.watch = ⟨none, false, 0⟩ ∧ h.frameErrors = 0 ∧
        h.watchAlarms = 0) ∧
    (∀ p : PortId, let x := State.reset.port p;
      x.phase = .idle ∧ x.pointer = 0 ∧ x.buffer = ⟨none, []⟩ ∧ x.status = ⟨.ok, 0, 0, 0, none⟩ ∧
        x.action.code = 0 ∧ x.action.overall = .none ∧ x.bitmap = 0 ∧ x.mask = 0)) ∧
  ∀ (s : State) (line : Bool) (legLines : Tab 4 Bool),
    exec (.powerOn line legLines) s = .next
      { State.reset with
        pending := s.pending, store := s.store, loadRunning := !line, switchLine := line, legLines := legLines,
        cRx := s.cRx, sRx := s.sRx } ∧
    exec .switchResetAsserted s = .next
      { State.reset with
        pending := s.pending, store := s.store, loadRunning := false, switchLine := true, legLines := s.legLines,
        cRx := s.cRx, sRx := s.sRx } ∧
    (s.switchLine = true → exec .switchResetReleased s = .next { s with switchLine := false, loadRunning := true })

/-- IMAGE_LOAD_COMPLETE with a good image and a valid default profile: the identification, wiring, profiles, H, the
watch parameters, the policy table and every leg record are the image's, clamped, with the built-in value for a start
preset code from 4 to 7 and for absent legs; lanes of enabled legs leave OFF with their leg's start presets, held in
DOWN where the leg's reset line is asserted and training otherwise (R1, R6, R15, R18, R27, R53, R58, R77, R112, R131,
R132, R186, R187). The image is the store's, or one found there instead (log 38). -/
def Obligations.GoodImageBringsThePartUp : Prop :=
  ∀ (found : Option FactoryImage) (s : State),
    let img := found.getD s.store;
    let preset := fun (code : Fin 8) (builtIn : Fin 4) => if code.val < 4 then Fin.ofNat 4 code.val else builtIn;
    s.legLaw → s.part = .loading → s.loadRunning = true → imageCheck (imageBytes img) = img.check →
    wiringValid img.wiring = true → validate (installWiring img.wiring) img.profile = none →
    ∃ t, exec (.imageLoadComplete found) s = .next t ∧
      t.part = .running ∧ t.faultCause = .none ∧ t.loadRunning = false ∧ t.store = img ∧ t.serial = img.serial ∧
      t.lengthCode = img.lengthCode ∧ t.wiring = installWiring img.wiring ∧ t.current = img.profile ∧
      t.pendingProfile = img.profile ∧ t.applyOutcome = .none ∧ t.failingLeg = 0 ∧ t.routeLaw ∧
      t.hysteresis = min 7 img.hysteresis.toNat ∧ t.dDrop = min 63 img.dDrop.toNat ∧
      t.pWatch = max 1 (min 255 img.pWatch.toNat) ∧ t.kAlarm = max 1 (min 15 img.kAlarm.toNat) ∧
      t.watchTimer = some (t.pWatch * 10) ∧ t.freeze = false ∧
      t.policy = PolicyTable.fixed img.policy ∧ t.policyLaw ∧ t.ports = s.ports ∧ t.legLines = s.legLines ∧
      (∀ k : LegId, t.legs.get k =
        if k.val < img.wiring.legCount then
          { threshold := min 186 (img.legs.get k).threshold.toNat
            lowMargin := (img.legs.get k).lowMargin
            autoRetrain := (img.legs.get k).autoRetrain
            sTx := preset (img.legs.get k).sTx 1
            cTx := preset (img.legs.get k).cTx 2
            sPartner := preset (img.legs.get k).sPartner 1
            cPartner := preset (img.legs.get k).cPartner 2 }
        else ⟨60, false, true, 1, 2, 1, 2⟩) ∧
      (∀ k : LegId, t.legState.get k = if (img.profile.legs.get k).enabled then .forming else .disabled) ∧
      (∀ i : LaneId, t.serves i = false → t.lane i = s.lane i) ∧
      (∀ (i : LaneId) (k : LegId), t.legOf i = some k → (img.profile.legs.get k).enabled = true →
        (t.lane i).hold = ⟨false, false, s.legLines.get k⟩ ∧ (t.lane i).sPair = (t.route.get i).switchLane ∧
        (t.half i .S).tx = ⟨presetSetting (t.legs.get k).sTx, []⟩ ∧
        (t.half i .C).tx = ⟨presetSetting (t.legs.get k).cTx, []⟩ ∧
        (s.legLines.get k = true → (t.lane i).state = .down) ∧
        (s.legLines.get k = false → (t.lane i).state = .train ∧
          (t.lane i).trainings = satInc counterMax (s.lane i).trainings))

/-- IMAGE_LOAD_COMPLETE with a bad image: IMAGE_FAULT with fault cause CHECK, or WIRING when the check matches, and the
built-in values everywhere else; the identification is the image's only with cause WIRING (R186, R187, R188); the
failing leg is 0 beside the apply outcome NONE (log 36). With a good image whose default profile is invalid: RUNNING,
every leg disabled, the reason and the failing leg in the apply outcome, the image's profile pending (R6, R15). The
image is the store's, or one found there instead (log 38). -/
def Obligations.BadImagesAndProfilesAreRefused : Prop :=
  ∀ (found : Option FactoryImage) (s : State),
    let img := found.getD s.store;
    s.part = .loading → s.loadRunning = true →
    (imageCheck (imageBytes img) ≠ img.check →
      exec (.imageLoadComplete found) s = .next
        { State.reset with
          pending := s.pending, store := img, part := .imageFault, faultCause := .check, loadRunning := false,
          switchLine := s.switchLine, legLines := s.legLines, cRx := s.cRx, sRx := s.sRx }) ∧
    (imageCheck (imageBytes img) = img.check → wiringValid img.wiring = false →
      exec (.imageLoadComplete found) s = .next
        { State.reset with
          pending := s.pending, store := img, part := .imageFault, faultCause := .wiring, loadRunning := false,
          serial := img.serial, lengthCode := img.lengthCode,
          switchLine := s.switchLine, legLines := s.legLines, cRx := s.cRx, sRx := s.sRx }) ∧
    (∀ (r : ApplyOutcome) (k : LegId), s.legLaw → imageCheck (imageBytes img) = img.check →
      wiringValid img.wiring = true → validate (installWiring img.wiring) img.profile = some (r, k) →
      ∃ t, exec (.imageLoadComplete found) s = .next t ∧
        t.part = .running ∧ t.store = img ∧ t.wiring = installWiring img.wiring ∧ t.current = disabledProfile ∧
        t.pendingProfile = img.profile ∧ t.applyOutcome = r ∧ t.failingLeg = k ∧ t.routeLaw ∧ t.lanes = s.lanes ∧
        (∀ m : LegId, t.legState.get m = .disabled) ∧ t.ports = s.ports)

/-- LEG_RESET_ASSERTED: LINE joins the hold set of every lane of the leg that is not OFF; a lane that was not in DOWN
enters it, and the leg is no longer LIVE (R51, R53, R56). LEG_RESET_RELEASED: LINE and LEG leave the leg's lanes, a lane
in DOWN with an empty set trains fresh, and the leg's port is cleared (R53, R173, R185). Operations still out through
that port are taken first, each as its own ACTION_LANE_OPERATION, the first first (R144, R148; log 10). That the port's
phase is IDLE then is the model's reading (log 22). -/
def Obligations.LegResetLineHoldsAndFreesTheLeg : Prop :=
  ∀ (k : LegId) (s : State),
    (∃ t, exec (.legResetAsserted k) s = .next t ∧
      t.offLanes = { s with legLines := s.legLines.set k true }.offLanes ∧
      (∀ i : LaneId, s.legOf i ≠ some k ∨ (s.lane i).state = .off → t.lane i = s.lane i) ∧
      (∀ i : LaneId, s.legOf i = some k → (s.lane i).state = .down →
        t.lane i = { s.lane i with hold := { (s.lane i).hold with line := true } }) ∧
      (∀ i : LaneId, s.legOf i = some k → (s.lane i).state ≠ .off → (s.lane i).state ≠ .down →
        t.lane i = { (s.lane i).enterDown with hold := { (s.lane i).hold with line := true } }) ∧
      (∀ m : LegId, t.legState.get m =
        if m = k ∧ s.legState.get m = .live then .forming else s.legState.get m)) ∧
    (s.legLines.get k = true → (s.port (legPort k)).handed = [] →
      ∃ t, exec (.legResetReleased k) s = .next t ∧
        t.legState = s.legState ∧ t.port (legPort k) = Port.reset ∧
        { t.offLanes with ports := s.ports } =
          { { s with legLines := s.legLines.set k false }.offLanes with ports := s.ports } ∧
        (∀ p, p ≠ legPort k → { t.port p with bitmap := (s.port p).bitmap } = s.port p) ∧
        (∀ i : LaneId, s.legOf i ≠ some k → t.lane i = s.lane i) ∧
        (∀ i : LaneId, s.legOf i = some k → (s.lane i).state = .down → (s.lane i).hold.switch = false →
          t.lane i = Lane.trainFresh (s.legs.get k) { s.lane i with hold := ⟨false, false, false⟩ }) ∧
        (∀ i : LaneId, s.legOf i = some k → (s.lane i).state ≠ .down ∨ (s.lane i).hold.switch = true →
          t.lane i = { s.lane i with hold := ⟨(s.lane i).hold.switch, false, false⟩ })) ∧
    (∀ (op : HandedOp) (rest : List HandedOp), s.legLines.get k = true →
      (s.port (legPort k)).handed = op :: rest →
      ∃ u, exec (.actionLaneOperation (legPort k) op.bit) s = .next u ∧
        exec (.legResetReleased k) s = exec (.legResetReleased k) u)

/-! ## Entries of segments and lanes -/

/-- Going IDLE (R39), DETECT entry (R32), TRAIN fresh (R42), DOWN (R41), OFF (R40, R76) and CARRY entry (R55, R134), and
a pull-back (R56), every field of the lane and of its sides: what stands in no equation below is kept. Going IDLE ends
the search (R39, R114: HALTED, but for NONE and ACCEPTED) and abandons a SEARCH scan and a search request that waits;
WATCH and ACTION scans stay. TRAIN fresh abandons a WATCH scan besides, DOWN and OFF every scan, and a pull-back a WATCH
scan alone (R104, R109). That OFF leaves the lane on no pairs with no case to take, and that leaving CARRY drops a
retrain request that waits, is the model's reading (log 12, log 15). -/
def Obligations.SegmentAndLaneEntriesFollowTheRules : Prop :=
  let without := fun (o : Origin) (x : Option Scan) => x.filter (fun sc => decide (sc.origin ≠ o));
  let ended := fun (q : Search) => { q with
    tSettle := none
    phase := (if q.phase = .none ∨ q.phase = .accepted then q.phase else .halted) };
  let idled := fun (h : Half) => { h with
    seg := { h.seg with state := .idle, tAcquire := none, tRelock := none, tTune := none }
    req := { h.req with outstanding := none, handed := none, tReply := none }
    search := ended h.search
    scan := { h.scan with inFlight := without .search h.scan.inFlight, waiting := false } };
  let stopped := fun (h : Half) =>
    { idled h with scan := { h.scan with inFlight := none, waiting := false } };
  let detects := fun (h : Half) (p : Fin 4) => { h with
    seg :=
      { state := .detect, own := h.seg.own + 1, partner := none, reason := h.seg.reason, polaritySuspect := false,
        marginal := false, tAcquire := some 60, tRelock := none, tTune := none, synchronised := false,
        ownReady := false, partnerReady := false, echo := ⟨0, 0, 0, 0, 0⟩, finalFom := h.seg.finalFom }
    tx := ⟨presetSetting p, []⟩
    resp := ⟨none, .none⟩
    req := ⟨none, none, 0, none, none⟩
    search := ⟨.none, 0, .post1, .minus, none, none, 0, false, false, none⟩ };
  let fresh := fun (h : Half) (p : Fin 4) => { detects h p with scan := { h.scan with
    inFlight := without .watch (without .search h.scan.inFlight), waiting := false } };
  let unwatched := fun (h : Half) => { h with scan := { h.scan with inFlight := without .watch h.scan.inFlight } };
  (∀ (h : Half) (p : Fin 4), h.setIdle = idled h ∧ h.detectEntry p = detects h p) ∧
  (∀ (l : Lane) (cfg : LegConfig),
    l.trainFresh cfg = { l with
      state := .train, trainings := satInc counterMax l.trainings, tQuiet := none, retrainRequested := false
      s := fresh l.s cfg.sTx
      c := fresh l.c cfg.cTx } ∧
    l.enterDown = { l with
      state := .down, fc := 0, tQuiet := none, retrainRequested := false, s := stopped l.s, c := stopped l.c } ∧
    l.enterOff = { l with
      state := .off, hold := ⟨false, false, false⟩, fc := 0, tQuiet := none, sPair := none, cases := [],
      retrainRequested := false
      s := { stopped l.s with tx := ⟨presetSetting 0, []⟩ }
      c := { stopped l.c with tx := ⟨presetSetting 0, []⟩ } } ∧
    l.enterCarry = { l with
      state := .carry, fc := 0
      s := { l.s with watch := ⟨l.s.seg.finalFom, false, 0⟩ }
      c := { l.c with watch := ⟨l.c.seg.finalFom, false, 0⟩ } } ∧
    l.pullBack = { l with
      state := .ready, retrainRequested := false, s := unwatched l.s, c := unwatched l.c })

/-! ## Signal, lock and frames -/

/-- SIGNAL_LOST in CARRY: the lane drops, and the leg with it (R36, R48, R56). In EXCHANGE or DONE with the lane in
TRAIN or READY: the segment fails with LOCK_LOST (R36, R37, R44). -/
def Obligations.SignalLossDropsOrFailsTheLane : Prop :=
  ∀ (r : Receiver) (s : State) (i : LaneId) (d : Side),
    (s.rx r).signal = true → s.standing r = some (i, d) →
    (∀ k : LegId, (s.lane i).state = .carry → (s.half i d).seg.state = .done → s.legOf i = some k →
      ∃ t, exec (.signalLost r) s = .next t ∧ t.rx r = ⟨false, false⟩ ∧ (s.lane i).dropsTo (t.lane i) ∧
        pulledBack s t i k ∧ t.offLanes = (s.setRx r ⟨false, false⟩).offLanes) ∧
    (((s.lane i).state = .train ∨ (s.lane i).state = .ready) →
      ((s.half i d).seg.state = .exchange ∨ (s.half i d).seg.state = .done) →
      ∃ t, exec (.signalLost r) s = .next t ∧ t.rx r = ⟨false, false⟩ ∧
        (s.lane i).failsTo (t.lane i) d .lockLost ∧ onlyLane s t i ∧
        t.offLanes = (s.setRx r ⟨false, false⟩).offLanes)

/-- Loss of signal or lock is no failure of a segment in IDLE or DETECT (R33, R39). With no scan in flight only the
receiver's signal and lock change. An ACTION scan in flight ends with NO READING, which is recorded and counted, and a
search request that waited for it is discarded; nothing else changes (R104, R108). -/
def Obligations.LossBeforeExchangeIsNoFailure : Prop :=
  ∀ (r : Receiver) (s : State) (i : LaneId) (d : Side),
    s.standing r = some (i, d) → ((s.half i d).seg.state = .idle ∨ (s.half i d).seg.state = .detect) →
    let lost := fun (c : Instr) (x : RxLine) => ∃ t, exec c s = .next t ∧
      ((s.half i d).scan.inFlight = none → t.quiet = (s.setRx r x).quiet) ∧
      (∀ sc, (s.half i d).scan.inFlight = some sc → sc.origin = .action →
        t.quiet = ((s.setRx r x).modifyHalf i d fun h =>
          { h with scan :=
            ⟨none, false, ⟨some .action, [0, 0, 0, 0, 0, 0], none⟩, satInc counterMax h.scan.count⟩ }).quiet);
    ((s.rx r).signal = true → lost (.signalLost r) ⟨false, false⟩) ∧
    ((s.rx r).lock = true → lost (.lockLost r) { s.rx r with lock := false })

/-- LOCK_LOST in EXCHANGE or DONE with no scan in flight starts T_relock at 2 ms and changes nothing else. A scan in
flight ends with NO READING, recorded and counted; where a search request waited for an ACTION scan, it starts in
EXCHANGE and ends with NO READING too, and is discarded in DONE (R104, R107, R108). LOCK_REGAINED stops T_relock of the
segment on the pair and changes nothing else; SIGNAL_PRESENT gives the receiver its signal back, still without lock
(R33, R36). That the signal comes without lock is the model's reading (log 4). -/
def Obligations.LockLossAndReturnMoveRelock : Prop :=
  ∀ (r : Receiver) (s : State),
    (∀ (i : LaneId) (d : Side), (s.rx r).lock = true → s.standing r = some (i, d) →
      ((s.half i d).seg.state = .exchange ∨ (s.half i d).seg.state = .done) →
      (s.half i d).scan.inFlight = none → (s.lane i).segmentLaw = true →
      ∃ t, exec (.lockLost r) s = .next t ∧
        t.quiet = ((s.setRx r { s.rx r with lock := false }).modifyHalf i d fun h =>
          { h with seg := { h.seg with tRelock := some 2 } }).quiet) ∧
    (∀ (i : LaneId) (d : Side) (sc : Scan), (s.rx r).lock = true → s.standing r = some (i, d) →
      ((s.half i d).seg.state = .exchange ∨ (s.half i d).seg.state = .done) →
      (s.half i d).scan.inFlight = some sc → (s.lane i).segmentLaw = true →
      ∃ t, exec (.lockLost r) s = .next t ∧
        (let x := (s.half i d).scan;
        let once := satInc counterMax x.count;
        let searching := x.waiting = true ∧ (s.half i d).seg.state = .exchange;
        (sc.origin = .action → ¬ searching →
          t.quiet = ((s.setRx r { s.rx r with lock := false }).modifyHalf i d fun h =>
            { h with
              seg := { h.seg with tRelock := some 2 }
              scan := ⟨none, false, ⟨some .action, [0, 0, 0, 0, 0, 0], none⟩, once⟩ }).quiet) ∧
        (sc.origin = .action → searching → (t.half i d).scan =
          ⟨none, false, ⟨some .search, [0, 0, 0, 0, 0, 0], none⟩, satInc counterMax once⟩) ∧
        (sc.origin = .search → x.waiting = false → (t.half i d).scan =
          ⟨none, false, ⟨some .search, [0, 0, 0, 0, 0, 0], none⟩, once⟩))) ∧
    (∀ (i : LaneId) (d : Side), s.rx r = ⟨true, false⟩ → s.standing r = some (i, d) →
      exec (.lockRegained r) s = .next ((s.setRx r ⟨true, true⟩).modifyHalf i d fun h =>
        { h with seg := { h.seg with tRelock := none } })) ∧
    (s.rx r = ⟨true, false⟩ → s.standing r = none → exec (.lockRegained r) s = .next (s.setRx r ⟨true, true⟩)) ∧
    ((s.rx r).signal = false → exec (.signalPresent r) s = .next (s.setRx r ⟨true, false⟩))

/-- LOCK_LOST while a WATCH scan runs on a receiver in CARRY: the scan ends with NO READING, which is an alarm reading;
a retrain is requested exactly when the leg's auto-retrain is on and the count has reached K_alarm (R108, R135, R136,
R138, R139). The lane stays in CARRY (R36). That a request waits as a flag of the lane, which stays in CARRY until
WATCH_RETRAIN_REQUEST is taken, is the model's reading (log 15). -/
def Obligations.LockLossDuringAWatchScanIsAnAlarm : Prop :=
  ∀ (r : Receiver) (s : State) (i : LaneId) (d : Side) (sc : Scan),
    (s.rx r).lock = true → s.standing r = some (i, d) → (s.lane i).state = .carry →
    (s.half i d).seg.state = .done → (s.half i d).scan.inFlight = some sc → sc.origin = .watch →
    (s.half i d).watch.low ≤ 15 →
    ∃ t, exec (.lockLost r) s = .next t ∧ (t.lane i).state = .carry ∧ onlyLane s t i ∧
      (t.half i d).seg.tRelock = some 2 ∧ (t.half i d).scan.inFlight = none ∧
      (t.half i d).scan.last = ⟨some .watch, [0, 0, 0, 0, 0, 0], none⟩ ∧
      (t.half i d).scan.count = satInc counterMax (s.half i d).scan.count ∧
      (t.half i d).watch = ⟨(s.half i d).watch.baseline, true, min 15 ((s.half i d).watch.low + 1)⟩ ∧
      (t.half i d).watchAlarms = satInc counterMax (s.half i d).watchAlarms ∧
      (t.lane i).retrainRequested = ((s.lane i).retrainRequested || ((s.legConfig i).autoRetrain &&
        decide (s.kAlarm ≤ min 15 ((s.half i d).watch.low + 1)))) ∧
      t.half i (Side.opposite d) = s.half i (Side.opposite d) ∧
      t.offLanes = (s.setRx r { s.rx r with lock := false }).offLanes

/-- A frame a transmitter sends is received as the frame that was sent when the polarities match, and behind an inverted
marker when they do not (R4, R81, R82, R192). -/
def Obligations.FramesSurviveTheLine : Prop :=
  ∀ (f : Frame),
    receive .normal f.encode = .good f ∧
    receive .inverted (throughPolarity .inverted f.encode) = .good f ∧
    receive .normal (throughPolarity .inverted f.encode) = .inverted ∧
    receive .inverted f.encode = .inverted

/-- FRAME_RECEIVED at a segment that is not IDLE: a frame whose check fails raises the side's frame check error counter
and does nothing else; an inverted marker sets polarity-suspect outside CARRY and does nothing in CARRY; symbols without
a marker do nothing (R57, R81, R82). -/
def Obligations.DiscardedFramesOnlyLeaveTheirTrace : Prop :=
  ∀ (r : Receiver) (bits : BitVec 94) (s : State) (i : LaneId) (d : Side),
    s.rx r = ⟨true, true⟩ → s.standing r = some (i, d) → (s.half i d).seg.state ≠ .idle →
    ∃ t, exec (.frameReceived r bits) s = .next t ∧
      (receive (s.rxPolarity r) bits = .badCheck →
        t.quiet = (s.modifyHalf i d fun h => { h with frameErrors := satInc counterMax h.frameErrors }).quiet) ∧
      (receive (s.rxPolarity r) bits = .inverted → (s.lane i).state ≠ .carry →
        t.quiet = (s.modifyHalf i d fun h => { h with seg := { h.seg with polaritySuspect := true } }).quiet) ∧
      (receive (s.rxPolarity r) bits = .inverted → (s.lane i).state = .carry → t.quiet = s.quiet) ∧
      (receive (s.rxPolarity r) bits = .noMarker → t.quiet = s.quiet)

/-- A good frame in DETECT: the segment enters EXCHANGE with the frame's session as partner session; the search hands
over a PRESET of the leg's partner start preset, issued at once when the frame carries no reply; the frame's request,
rx_ready and echo are taken too (R33, R34, R84, R88, R93, R94, R97, R115). -/
def Obligations.GoodFrameEndsDetect : Prop :=
  ∀ (r : Receiver) (bits : BitVec 94) (s : State) (i : LaneId) (d : Side) (f : Frame),
    s.rx r = ⟨true, true⟩ → s.standing r = some (i, d) → (s.lane i).state = .train →
    (s.half i d).seg.state = .detect → (s.half i d).seg.synchronised = false →
    (s.half i d).seg.ownReady = false → (s.half i d).seg.partnerReady = false →
    (s.half i d).req = Requester.reset → (s.half i d).resp = ⟨none, .none⟩ →
    receive (s.rxPolarity r) bits = .good f →
    ∃ t, exec (.frameReceived r bits) s = .next t ∧ onlyLane s t i ∧ t.offLanes = s.offLanes ∧
      (t.lane i).state = .train ∧ t.half i (Side.opposite d) = s.half i (Side.opposite d) ∧
      (let h := s.half i d;
      let x := t.half i d;
      x.seg.state = .exchange ∧ x.seg.partner = some f.sessionNumber ∧ x.seg.own = h.seg.own ∧
        x.seg.tAcquire = none ∧ x.seg.tTune = some 800 ∧ x.seg.synchronised = f.reply?.isNone ∧
        x.seg.partnerReady = (f.ready && f.reply?.isNone) ∧ x.seg.echo = f.echo ∧ x.search.phase = .opening ∧
        (f.reply? = none → x.req.outstanding = some (.preset ((s.legConfig i).partnerPreset d), 0) ∧
          x.req.tReply = some 4 ∧ x.req.nextTag = 1) ∧
        (f.reply? ≠ none → x.req.outstanding = none ∧ x.req.tReply = none ∧
          x.req.handed = some (.preset ((s.legConfig i).partnerPreset d))) ∧
        (f.request = .none → x.tx = h.tx ∧ x.resp = ⟨none, .none⟩) ∧
        (f.request = .bad → x.tx = h.tx ∧ x.resp = ⟨some f.requestTag, .badRequest⟩) ∧
        (∀ q, f.request = .request q → x.tx = (h.tx.serve q).1 ∧
          x.resp = ⟨some f.requestTag, (h.tx.serve q).2⟩))

/-- A good frame at a segment in EXCHANGE, its lane in TRAIN, field by field: another session is adopted, the Responder
forgetting its last tag and the partner-ready flag clearing (R85); a frame without a reply tag sets the synchronised
flag and issues a request that waited (R94); a reply that carries the outstanding request's tag and an outcome answers
it, and the search acts on the outcome (R92); a new request is served and a repeated one is not (R88, R89); rx_ready
sets the partner-ready flag of a synchronised segment (R97); the echo is recorded (R100). A reply that fails the segment
fails the lane (R37, R44); that the other fields are taken all the same is the model's reading (log 9). With both
readiness flags the segment is DONE with the reference as its final FOM (R98), and a lane whose other segment is DONE
enters READY, where it waits while another lane of its leg is not READY (R43). -/
def Obligations.ExchangeFramesAreTakenFieldByField : Prop :=
  ∀ (r : Receiver) (bits : BitVec 94) (s : State) (i : LaneId) (d : Side) (f : Frame),
    s.rx r = ⟨true, true⟩ → s.standing r = some (i, d) → (s.lane i).state = .train →
    (s.half i d).seg.state = .exchange → receive (s.rxPolarity r) bits = .good f →
    let h₀ := s.half i d;
    let h₁ := if h₀.seg.partner = some f.sessionNumber then h₀ else
      { h₀ with
        seg := { h₀.seg with partner := some f.sessionNumber, partnerReady := false }
        resp := ⟨none, .none⟩ };
    let h₂ := if f.reply? = none ∧ h₁.seg.synchronised = false then
        { h₁ with
          seg := { h₁.seg with synchronised := true }
          req := match h₁.req.handed with | some q => h₁.req.issue q | none => h₁.req }
      else h₁;
    ∃ t, exec (.frameReceived r bits) s = .next t ∧
      (let taken := fun (o : Out) =>
        (let served : TxUnit × Responder := match f.request with
          | .none => (h₂.tx, h₂.resp)
          | .bad => if h₂.resp.lastTag = some f.requestTag then (h₂.tx, h₂.resp)
            else (h₂.tx, ⟨some f.requestTag, .badRequest⟩)
          | .request q => if h₂.resp.lastTag = some f.requestTag then (h₂.tx, h₂.resp)
            else ((h₂.tx.serve q).1, ⟨some f.requestTag, (h₂.tx.serve q).2⟩);
        let x : Half := { o.half with
          tx := served.1
          resp := served.2
          seg := { o.half.seg with
            echo := f.echo
            partnerReady := o.half.seg.partnerReady || (f.ready && h₂.seg.synchronised) } };
        let y : Half := { x with seg := { x.seg with
          state := .done, tTune := none, reason := .none, finalFom := x.search.reference } };
        let both := x.seg.ownReady = true ∧ x.seg.partnerReady = true;
        let rest := (s.half i (Side.opposite d)).seg.state;
        (∀ e, o.fail = some e → ((s.lane i).setHalf d x).failsTo (t.lane i) d e ∧ onlyLane s t i ∧
          t.offLanes = s.offLanes) ∧
        (o.fail = none → ¬ both → t.quiet = (s.setLane i ((s.lane i).setHalf d x)).quiet) ∧
        (o.fail = none → both → rest ≠ .done → t.quiet = (s.setLane i ((s.lane i).setHalf d y)).quiet) ∧
        (∀ k j, o.fail = none → both → rest = .done → s.legOf i = some k → j ≠ i → s.legOf j = some k →
          (s.lane j).state ≠ .ready →
          t.quiet = (s.setLane i { (s.lane i).setHalf d y with state := .ready }).quiet));
      ((∀ q tag, h₂.req.outstanding = some (q, tag) → f.reply? ≠ some tag ∨ f.outcome = .none) →
        taken (Out.ok h₂)) ∧
      (∀ q tag, h₂.req.outstanding = some (q, tag) → f.reply? = some tag → f.outcome ≠ .none →
        taken (Half.answered (s.ctx i d)
          { h₂ with req := { h₂.req with
            outstanding := none, tReply := none, lastReply := some (tag, f.outcome) } } f.outcome)))

/-- A good frame of the partner's session at a segment in DONE, outside CARRY: no request, a repeat, or a new request
that the Transmit Setting Unit carries out and whose outcome is stored under its tag; the echo is recorded, and nothing
else changes (R88, R89, R100). -/
def Obligations.PartnerRequestIsServedInDone : Prop :=
  ∀ (r : Receiver) (bits : BitVec 94) (s : State) (i : LaneId) (d : Side) (f : Frame),
    s.rx r = ⟨true, true⟩ → s.standing r = some (i, d) →
    ((s.lane i).state = .train ∨ (s.lane i).state = .ready) → (s.lane i).segmentLaw = true →
    (s.half i d).seg.state = .done → (s.half i d).seg.partner = some f.sessionNumber →
    receive (s.rxPolarity r) bits = .good f →
    ∃ t, exec (.frameReceived r bits) s = .next t ∧
      ((f.request = .none ∨ (s.half i d).resp.lastTag = some f.requestTag) →
        t.quiet = (s.modifyHalf i d fun h => { h with seg := { h.seg with echo := f.echo } }).quiet) ∧
      (f.request = .bad → (s.half i d).resp.lastTag ≠ some f.requestTag →
        t.quiet = (s.modifyHalf i d fun h =>
          { h with seg := { h.seg with echo := f.echo }, resp := ⟨some f.requestTag, .badRequest⟩ }).quiet) ∧
      (∀ q, f.request = .request q → (s.half i d).resp.lastTag ≠ some f.requestTag →
        t.quiet = (s.modifyHalf i d fun h =>
          { h with
            seg := { h.seg with echo := f.echo }
            tx := (h.tx.serve q).1
            resp := ⟨some f.requestTag, (h.tx.serve q).2⟩ }).quiet)

/-- A good frame of a new session at a segment in DONE: in CARRY the lane drops (R48), and otherwise the segment
re-enters EXCHANGE and a READY lane returns to TRAIN, no counter changing (R38, R47, R86). -/
def Obligations.PartnerRestartIsTaken : Prop :=
  ∀ (r : Receiver) (bits : BitVec 94) (s : State) (i : LaneId) (d : Side) (f : Frame),
    s.rx r = ⟨true, true⟩ → s.standing r = some (i, d) → (s.half i d).seg.state = .done →
    (s.half i d).seg.partner ≠ some f.sessionNumber → (s.half i d).req.outstanding = none →
    receive (s.rxPolarity r) bits = .good f →
    ∃ t, exec (.frameReceived r bits) s = .next t ∧ t.offLanes = s.offLanes ∧
      (∀ k, (s.lane i).state = .carry → s.legOf i = some k →
        (s.lane i).dropsTo (t.lane i) ∧ pulledBack s t i k) ∧
      (((s.lane i).state = .train ∨ (s.lane i).state = .ready) →
        (t.lane i).state = .train ∧ onlyLane s t i ∧ (t.lane i).fc = (s.lane i).fc ∧
        (t.lane i).trainings = (s.lane i).trainings ∧ (t.lane i).failures = (s.lane i).failures ∧
        (t.lane i).drops = (s.lane i).drops ∧ (t.lane i).retrains = (s.lane i).retrains ∧
        (t.half i d).frameErrors = (s.half i d).frameErrors ∧ (t.half i d).watchAlarms = (s.half i d).watchAlarms ∧
        (t.half i d).scan = (s.half i d).scan ∧ (t.half i d).watch = (s.half i d).watch ∧
        t.half i (Side.opposite d) = s.half i (Side.opposite d) ∧
        (t.half i d).seg.state = .exchange ∧ (t.half i d).seg.partner = some f.sessionNumber ∧
        (t.half i d).seg.own = (s.half i d).seg.own ∧ (t.half i d).seg.marginal = false ∧
        (t.half i d).seg.ownReady = false ∧ (t.half i d).seg.tTune = some 800 ∧
        (t.half i d).search.phase = .opening ∧
        (f.request = .none → (t.half i d).tx = (s.half i d).tx ∧ (t.half i d).resp = ⟨none, .none⟩))

/-- The frame that completes the last segment of the last lane of a leg takes the whole leg through READY into CARRY in
one event (R35, R43, R55, R98, R134). -/
def Obligations.LastReadyFrameBringsTheLegIntoCarry : Prop :=
  ∀ (r : Receiver) (bits : BitVec 94) (s : State) (i : LaneId) (d : Side) (k : LegId) (f : Frame),
    s.rx r = ⟨true, true⟩ → s.standing r = some (i, d) → s.legOf i = some k →
    (s.lane i).state = .train → (s.half i d).seg.state = .exchange →
    (s.half i (Side.opposite d)).seg.state = .done → (s.half i d).seg.ownReady = true →
    (s.half i d).seg.synchronised = true → (s.half i d).req.outstanding = none →
    (s.half i d).seg.partner = some f.sessionNumber → f.ready = true →
    (∀ j, j ≠ i → s.legOf j = some k → (s.lane j).state = .ready) →
    receive (s.rxPolarity r) bits = .good f →
    ∃ t, exec (.frameReceived r bits) s = .next t ∧ t.offLanes = s.offLanes ∧
      t.legState = s.legState.set k .live ∧ (t.lane i).state = .carry ∧ (t.lane i).fc = 0 ∧
      (t.half i d).seg.state = .done ∧ (t.half i d).seg.reason = .none ∧ (t.half i d).seg.tTune = none ∧
      (t.half i d).seg.finalFom = (s.half i d).search.reference ∧
      (t.half i d).watch = ⟨(s.half i d).search.reference, false, 0⟩ ∧
      (t.half i (Side.opposite d)).watch = ⟨(s.half i (Side.opposite d)).seg.finalFom, false, 0⟩ ∧
      (∀ j, j ≠ i → s.legOf j = some k → t.lane j = (s.lane j).enterCarry) ∧
      (∀ j, s.legOf j ≠ some k → t.lane j = s.lane j)

/-- What the search of a synchronised segment does with each outcome of its request in each phase (R116, R118, R119,
R120, R122, R123), up to the end of a direction, of a tap and of a pass, and the acceptance at the end of the last pass
(R125, R126). With a SEARCH reading in REFERENCE: a FOM becomes the reference and the first pass begins with a TRY of
POST1 in -1; a NO READING is counted, and T_settle starts again unless it is the third, which fails the segment (R117).
In MEASURING the reading becomes the trial reading: better than the reference by more than H, a KEEP; otherwise a BACK;
UNORDERED, counted, with a BACK unless it is the third (R121, R124). -/
def Obligations.AnswersAndReadingsDriveTheSearch : Prop :=
  (∀ (ctx : Ctx) (h : Half) (o : ReplyOutcome), h.seg.synchronised = true →
    let next := fun (h : Half) (q : Search) (r : Request) => Out.ok { h with search := q, req := h.req.issue r };
    let accepted := fun (m : Bool) => Out.ok { h with
      search := { h.search with phase := .accepted }, seg := { h.seg with ownReady := true, marginal := m } };
    let lastPass := h.search.passMoved = false ∨ 4 ≤ h.search.pass;
    let tapOver := h.search.dir = .plus ∨ h.search.tapMoved = true;
    let directionEnds :=
      (¬ tapOver → h.answered ctx o =
        next h { h.search with dir := .plus, phase := .trying } (.trial h.search.tap .plus)) ∧
      (tapOver → h.search.tap = .post1 → h.answered ctx o =
        next h { h.search with tap := .pre, dir := .minus, tapMoved := false, phase := .trying } (.trial .pre .minus)) ∧
      (tapOver → h.search.tap = .pre → h.answered ctx o =
        next h { h.search with tap := .post2, dir := .minus, tapMoved := false, phase := .trying }
          (.trial .post2 .minus)) ∧
      (tapOver → h.search.tap = .post2 → ¬ lastPass → h.answered ctx o =
        next h { h.search with
          pass := h.search.pass + 1, passMoved := false, tap := .post1, dir := .minus, tapMoved := false,
          phase := .trying } (.trial .post1 .minus)) ∧
      (∀ f, tapOver → h.search.tap = .post2 → lastPass → h.search.reference = some f →
        h.answered ctx o =
          if ctx.threshold ≤ f then accepted false
          else if ctx.lowMargin then accepted true
          else ⟨h, some .lowMargin, false⟩);
    (h.search.phase = .opening →
      (o = .applied → h.answered ctx o = Out.ok
        { h with search := { h.search with phase := .reference, tSettle := some 1 } }) ∧
      (o ≠ .applied → h.answered ctx o = ⟨h, some .partnerRefused, false⟩)) ∧
    (h.search.phase = .trying →
      (o = .applied → h.answered ctx o = Out.ok
        { h with search := { h.search with phase := .measuring, tSettle := some 1 } }) ∧
      ((o = .atLimit ∨ o = .stackFull) → directionEnds) ∧
      ((o = .none ∨ o = .stackEmpty ∨ o = .badRequest) → h.answered ctx o = ⟨h, some .partnerRefused, false⟩)) ∧
    (h.search.phase = .keeping → o = .applied → h.answered ctx o =
      next h { h.search with
        reference := h.search.trialReading, tapMoved := true, passMoved := true, phase := .trying }
        (.trial h.search.tap h.search.dir)) ∧
    (h.search.phase = .backing → o = .applied → directionEnds) ∧
    ((h.search.phase = .keeping ∨ h.search.phase = .backing) →
      (o = .stackEmpty → h.answered ctx o = ⟨h, some .partnerStack, false⟩) ∧
      ((o = .none ∨ o = .atLimit ∨ o = .stackFull ∨ o = .badRequest) →
        h.answered ctx o = ⟨h, some .partnerRefused, false⟩))) ∧
  (∀ (ctx : Ctx) (h : Half) (reading : Fom), h.seg.synchronised = true →
    let next := fun (q : Search) (r : Request) => Out.ok { h with search := q, req := h.req.issue r };
    let u := h.search.unordered + 1;
    (h.search.phase = .reference →
      (∀ f, reading = some f → h.searchReading ctx reading =
        next { h.search with
          reference := some f, pass := 1, passMoved := false, tap := .post1, dir := .minus, tapMoved := false,
          phase := .trying } (.trial .post1 .minus)) ∧
      (reading = none → u < 3 → h.searchReading ctx reading = Out.ok
        { h with search := { h.search with unordered := u, phase := .reference, tSettle := some 1 } }) ∧
      (reading = none → 3 ≤ u → h.searchReading ctx reading =
        ⟨{ h with search := { h.search with unordered := u } }, some .noReading, false⟩)) ∧
    (h.search.phase = .measuring →
      (∀ f g, reading = some f → h.search.reference = some g → g + ctx.hysteresis < f →
        h.searchReading ctx reading = next { h.search with trialReading := some f, phase := .keeping } .keep) ∧
      (∀ f g, reading = some f → h.search.reference = some g → f ≤ g + ctx.hysteresis →
        h.searchReading ctx reading = next { h.search with trialReading := some f, phase := .backing } .back) ∧
      ((reading = none ∨ h.search.reference = none) → u < 3 → h.searchReading ctx reading =
        next { h.search with trialReading := reading, unordered := u, phase := .backing } .back) ∧
      ((reading = none ∨ h.search.reference = none) → 3 ≤ u → h.searchReading ctx reading =
        ⟨{ h with search := { h.search with trialReading := reading, unordered := u } }, some .noReading, false⟩)))

/-! ## Timers, scans and the watch -/

/-- The timers of a lane. T_ACQUIRE_EXPIRY, T_TUNE_EXPIRY and T_REPLY_EXPIRY fail the segment with their reasons;
T_RELOCK_EXPIRY fails it with LOCK_LOST in TRAIN and READY, and drops a lane in CARRY (R33, R34, R36, R37, R44, R48,
R56, R95). T_SETTLE_EXPIRY: a SEARCH scan starts on a free receiver with lock, gives NO READING at once on one without,
and waits for a scan in flight (R104, R108, R117, R121). T_QUIET_EXPIRY: a lane in WAIT trains fresh with fc unchanged
(R45). -/
def Obligations.LaneTimersExpire : Prop :=
  ∀ (s : State) (i : LaneId) (d : Side),
    (((s.lane i).state = .train ∨ (s.lane i).state = .ready) → (s.half i d).seg.state ≠ .idle →
      ((s.half i d).seg.tAcquire ≠ none → ∃ t, exec (.tAcquireExpiry i d) s = .next t ∧
        (s.lane i).failsTo (t.lane i) d .acquireTimeout ∧ onlyLane s t i ∧ t.offLanes = s.offLanes) ∧
      ((s.half i d).seg.tTune ≠ none → ∃ t, exec (.tTuneExpiry i d) s = .next t ∧
        (s.lane i).failsTo (t.lane i) d .tuneTimeout ∧ onlyLane s t i ∧ t.offLanes = s.offLanes) ∧
      ((s.half i d).req.tReply ≠ none → ∃ t, exec (.tReplyExpiry i d) s = .next t ∧
        (s.lane i).failsTo (t.lane i) d .replyTimeout ∧ onlyLane s t i ∧ t.offLanes = s.offLanes) ∧
      ((s.half i d).seg.tRelock ≠ none → ∃ t, exec (.tRelockExpiry i d) s = .next t ∧
        (s.lane i).failsTo (t.lane i) d .lockLost ∧ onlyLane s t i ∧ t.offLanes = s.offLanes)) ∧
    (∀ k, (s.lane i).state = .carry → s.legOf i = some k → (s.half i d).seg.tRelock ≠ none →
      ∃ t, exec (.tRelockExpiry i d) s = .next t ∧ (s.lane i).dropsTo (t.lane i) ∧ pulledBack s t i k ∧
        t.offLanes = s.offLanes) ∧
    ((s.half i d).search.tSettle ≠ none → (s.lane i).segmentLaw = true →
      ∃ t, exec (.tSettleExpiry i d) s = .next t ∧
        ((s.half i d).scan.inFlight = none → s.locked i d = true →
          t.quiet = (s.modifyHalf i d fun h =>
            { h with
              search := { h.search with tSettle := none }
              scan := { h.scan with inFlight := some ⟨.search, 1, []⟩ } }).quiet) ∧
        ((s.half i d).scan.inFlight = none → s.locked i d = false →
          (t.half i d).scan.last = ⟨some .search, [0, 0, 0, 0, 0, 0], none⟩ ∧
          (t.half i d).scan.count = satInc counterMax (s.half i d).scan.count) ∧
        ((s.half i d).scan.inFlight ≠ none →
          t.quiet = (s.modifyHalf i d fun h =>
            { h with
              search := { h.search with tSettle := none }
              scan := { h.scan with waiting := true } }).quiet)) ∧
    ((s.lane i).state = .wait → (s.lane i).tQuiet ≠ none →
      ∃ t, exec (.tQuietExpiry i) s = .next t ∧ t.lane i = (s.lane i).trainFresh (s.legConfig i) ∧
        (t.lane i).fc = (s.lane i).fc ∧ onlyLane s t i ∧ t.offLanes = s.offLanes)

/-- WATCH_PERIOD_EXPIRY: the timer starts again at P_watch × 10 ms; every free receiver of a lane in CARRY starts a
WATCH scan, or takes a NO READING at once where it has no lock; a receiver with a scan in flight is skipped; other lanes
are not asked (R132, R133, R135, R136). -/
def Obligations.WatchPeriodScansCarryingLanes : Prop :=
  ∀ (s : State), s.watchTimer ≠ none →
    ∃ t, exec .watchPeriodExpiry s = .next t ∧ t.legState = s.legState ∧
      t.offLanes = { s with watchTimer := some (s.pWatch * 10) }.offLanes ∧
      (∀ i : LaneId, (s.lane i).state ≠ .carry → t.lane i = s.lane i) ∧
      (∀ (i : LaneId) (d : Side), (s.lane i).state = .carry → (t.lane i).state = .carry ∧
        ((s.half i d).scan.inFlight ≠ none → t.half i d = s.half i d) ∧
        ((s.half i d).scan.inFlight = none → s.locked i d = true →
          t.half i d = { s.half i d with
            scan := { (s.half i d).scan with inFlight := some ⟨.watch, 1, []⟩ } }) ∧
        ((s.half i d).scan.inFlight = none → s.locked i d = false →
          (t.half i d).scan.inFlight = none ∧ (t.half i d).scan.last = ⟨some .watch, [0, 0, 0, 0, 0, 0], none⟩ ∧
          (t.half i d).watch = ⟨(s.half i d).watch.baseline, true, satInc 15 (s.half i d).watch.low⟩ ∧
          (t.half i d).watchAlarms = satInc counterMax (s.half i d).watchAlarms))

/-- SCAN_WINDOW_END: a count of 3 or less moves to the next offset up to 31; otherwise the edge ends, at the offset
before on a count of 4 or more and at 31 on a pass there, and the next edge begins at offset 1 (R105, R106). The sixth
edge of an ACTION scan ends it: the reading is recorded with its figure of merit, the scan count rises, and a search
request that waited for the scan starts, if the segment is in EXCHANGE, and is discarded otherwise (R104, R107, R111).
-/
def Obligations.ScanWindowEndMovesTheScan : Prop :=
  ∀ (s : State) (i : LaneId) (d : Side) (count : Nat) (sc : Scan),
    (s.half i d).scan.inFlight = some sc → s.locked i d = true → (s.lane i).segmentLaw = true →
    ∃ t, exec (.scanWindowEnd i d count) s = .next t ∧
      (count ≤ 3 → sc.offset < 31 →
        t.quiet = (s.modifyHalf i d fun h =>
          { h with scan := { h.scan with inFlight := some ⟨sc.origin, sc.offset + 1, sc.edges⟩ } }).quiet) ∧
      (∀ v, (4 ≤ count ∧ v = sc.offset - 1 ∨ count ≤ 3 ∧ 31 ≤ sc.offset ∧ v = sc.offset) →
        (sc.edges.length < 5 →
          t.quiet = (s.modifyHalf i d fun h =>
            { h with scan := { h.scan with inFlight := some ⟨sc.origin, 1, sc.edges ++ [v]⟩ } }).quiet) ∧
        (5 ≤ sc.edges.length → sc.origin = .action →
          t.quiet = (s.modifyHalf i d fun h =>
            { h with scan :=
              { inFlight := (if h.scan.waiting = true ∧ h.seg.state = .exchange then some ⟨.search, 1, []⟩ else none)
                waiting := false
                last := ⟨some .action, sc.edges ++ [v], some (figureOfMerit (sc.edges ++ [v]))⟩
                count := satInc counterMax h.scan.count } }).quiet))

/-- The window that ends the sixth edge of a scan completes it: the reading is recorded with its figure of merit, the
scan count rises, the origin takes the reading, and a search request that waited starts in EXCHANGE and is discarded
otherwise (R104, R107, R111). A WATCH reading of a lane in CARRY is judged against its baseline (R135): an alarm reading
sets the alarm flag, raises the watch alarms and the consecutive-low count, and requests a retrain when auto-retrain is
on and the count has reached K_alarm (R136, R138, R139; the request is a flag of the lane, log 15); any other sets the
count to 0 (R137). A SEARCH reading of a synchronised segment in EXCHANGE becomes the reference, or is compared with it
and closed by KEEP or BACK (R117, R121). -/
def Obligations.CompletedScansReachTheirEngine : Prop :=
  ∀ (s : State) (i : LaneId) (d : Side) (count : Nat) (sc : Scan) (v : Nat),
    (s.half i d).scan.inFlight = some sc → s.locked i d = true → 5 ≤ sc.edges.length →
    (4 ≤ count ∧ v = sc.offset - 1 ∨ count ≤ 3 ∧ 31 ≤ sc.offset ∧ v = sc.offset) →
    let h := s.half i d;
    let edges := sc.edges ++ [v];
    let f := figureOfMerit edges;
    let next := if h.scan.waiting = true ∧ h.seg.state = .exchange then some ⟨.search, 1, []⟩ else none;
    let scanner : Scanner := ⟨next, false, ⟨some sc.origin, edges, some f⟩, satInc counterMax h.scan.count⟩;
    let low := satInc 15 h.watch.low;
    ∃ t, exec (.scanWindowEnd i d count) s = .next t ∧
      (∀ b, sc.origin = .watch → (s.lane i).state = .carry → h.watch.baseline = some b →
        (f + s.dDrop ≤ b → t.quiet = (s.setLane i
          { (s.lane i).setHalf d { h with
              scan := scanner, watch := ⟨some b, true, low⟩, watchAlarms := satInc counterMax h.watchAlarms } with
            retrainRequested := (s.lane i).retrainRequested ||
              ((s.legConfig i).autoRetrain && decide (s.kAlarm ≤ low)) }).quiet) ∧
        (b < f + s.dDrop → t.quiet = (s.modifyHalf i d fun h =>
          { h with scan := scanner, watch := { h.watch with low := 0 } }).quiet)) ∧
      (sc.origin = .search → (s.lane i).state = .train → h.seg.state = .exchange → h.seg.synchronised = true →
        (h.search.phase = .reference → t.quiet = (s.modifyHalf i d fun h =>
          { h with
            scan := scanner
            search := { h.search with
              reference := some f, pass := 1, passMoved := false, tap := .post1, dir := .minus, tapMoved := false,
              phase := .trying }
            req := h.req.issue (.trial .post1 .minus) }).quiet) ∧
        (∀ g, h.search.phase = .measuring → h.search.reference = some g →
          (g + s.hysteresis < f → t.quiet = (s.modifyHalf i d fun h =>
            { h with
              scan := scanner
              search := { h.search with trialReading := some f, phase := .keeping }
              req := h.req.issue .keep }).quiet) ∧
          (f ≤ g + s.hysteresis → t.quiet = (s.modifyHalf i d fun h =>
            { h with
              scan := scanner
              search := { h.search with trialReading := some f, phase := .backing }
              req := h.req.issue .back }).quiet)))

/-- WATCH_RETRAIN_REQUEST: taken in CARRY, the lane trains fresh, one retrain by watch is counted and no drop, and the
leg is pulled back; taken elsewhere it changes nothing but the request itself (R49, R56, R139). That the request waits
as a flag of the lane is the model's reading (log 15). -/
def Obligations.WatchRetrainIsTakenInCarry : Prop :=
  ∀ (s : State) (i : LaneId), (s.lane i).retrainRequested = true →
    (∀ k, (s.lane i).state = .carry → s.legOf i = some k →
      ∃ t, exec (.watchRetrainRequest i) s = .next t ∧
        t.lane i = { (s.lane i).trainFresh (s.legConfig i) with
          retrains := satInc counterMax (s.lane i).retrains } ∧
        (t.lane i).state = .train ∧ (t.lane i).fc = (s.lane i).fc ∧ (t.lane i).drops = (s.lane i).drops ∧
        pulledBack s t i k ∧ t.offLanes = s.offLanes) ∧
    ((s.lane i).state ≠ .carry →
      exec (.watchRetrainRequest i) s = .next (s.setLane i { s.lane i with retrainRequested := false }))

/-- APPLY_LANE_CASE: an unchanged lane keeps everything; a changed lane goes to DOWN with its hold set kept, takes up
the pairs of its switch lane unless a later apply has moved it again, and trains fresh if nothing holds it; a leg whose
lane so leaves CARRY is pulled back (R9, R19, R56; log 12). -/
def Obligations.ApplyCaseIsTaken : Prop :=
  ∀ (s : State) (i : LaneId) (c : ApplyCase) (rest : List ApplyCase), (s.lane i).cases = c :: rest →
    (c.changed = false →
      ∃ t, exec (.applyLaneCase i) s = .next t ∧ t.quiet = (s.setLane i { s.lane i with cases := rest }).quiet) ∧
    (c.changed = true →
      ∃ t, exec (.applyLaneCase i) s = .next t ∧ t.offLanes = s.offLanes ∧
        (let l := { (s.lane i).enterDown with
          cases := rest, sPair := if rest.any (fun c => c.moves) then none else (s.route.get i).switchLane };
        ((s.lane i).hold = ⟨false, false, false⟩ → t.lane i = l.trainFresh (s.legConfig i)) ∧
        ((s.lane i).hold ≠ ⟨false, false, false⟩ → t.lane i = l)) ∧
        ((s.lane i).state ≠ .carry → onlyLane s t i) ∧
        (∀ k, (s.lane i).state = .carry → s.legOf i = some k → pulledBack s t i k))

/-- An action whose named lanes all take their operation later hands it to them: no lane changes, and the operations out
are those of the named lanes, for a setting action those that pass its tests (R73, R148, R153). ACTION_LANE_OPERATION: a
lane takes the operation handed to it as an event of its own, each code as its rule gives, a lane that is OFF by then
NOT_MAPPED; the outcome stands at the lane's mask bit (R147, R149 to R152, R154). That operations wait, and that a
setting operation is carried out whatever its segment does meanwhile, is the model's reading (log 10, log 31). -/
def Obligations.DeferredOperationsAreTaken : Prop :=
  (∀ (p : PortId) (args : ActionArgs) (s : State),
    let handsOut := fun (c : Instr) (code : Nat) (passes : LaneId → Prop) => actionReady s p code →
      ∃ t, exec c s = .next t ∧ t.lanes = s.lanes ∧ t.legState = s.legState ∧ (t.port p).action.code = byte code ∧
        (t.port p).action.args = args ∧
        (∀ (b : Fin 8) (i : LaneId), (⟨b, i⟩ : HandedOp) ∈ (t.port p).handed ↔ names s p args b i ∧ passes i);
    let settable := fun (i : LaneId) => (s.lane i).state ≠ .off ∧ ¬ (p ≠ 0 ∧ args.side = .far ∧ s.policy.far = false) ∧
      (s.half i (sideOf p args.side)).seg.state ≠ .exchange;
    handsOut (.retrain p args 255) 1 (fun _ => True) ∧ handsOut (.hold p args 255) 2 (fun _ => True) ∧
    handsOut (.release p args 255) 3 (fun _ => True) ∧ handsOut (.measure p args 255) 4 (fun _ => True) ∧
    handsOut (.save p args 255) 5 settable ∧ handsOut (.restore p args 255) 6 settable ∧
    handsOut (.discard p args 255) 7 settable ∧ (args.tap ≠ 3 → handsOut (.step p args 255) 8 settable) ∧
    (args.preset.val < 4 → handsOut (.preset p args 255) 9 settable) ∧
    handsOut (.clearCounters p args 255) 10 (fun _ => True)) ∧
  (∀ (s : State) (p : PortId) (b : Fin 8) (op : HandedOp), s.handedAt p b = some op →
    ∃ t, exec (.actionLaneOperation p b) s = .next t ∧ op.bit = b ∧
      (let i := op.lane;
      let l := s.lane i;
      let code := (s.port p).action.code;
      let args := (s.port p).action.args;
      let d := sideOf p args.side;
      let h := s.half i d;
      let pulled := (l.state ≠ .carry → onlyLane s t i) ∧
        (∀ k, l.state = .carry → s.legOf i = some k → pulledBack s t i k);
      let sets := fun (y : TxUnit × ReplyOutcome) => l.state ≠ .off →
        handedTaken s t p op (settingOutcome y.2) ∧ onlyLane s t i ∧ t.lane i = l.setHalf d { h with tx := y.1 };
      (l.state = .off → 1 ≤ code.toNat → code.toNat ≤ 10 →
        handedTaken s t p op .notMapped ∧ t.lane i = l ∧ onlyLane s t i) ∧
      (code = 1 → l.state ≠ .off → l.state ≠ .down → handedTaken s t p op .done ∧ pulled ∧
        t.lane i = Lane.trainFresh (s.legConfig i) { l with fc := 0 }) ∧
      (code = 1 → l.state = .down → handedTaken s t p op .busy ∧ onlyLane s t i ∧ t.lane i = l) ∧
      (code = 2 → l.state ≠ .off → handedTaken s t p op .done ∧ pulled ∧ (t.lane i).state = .down ∧
        t.lane i = l.addHold (if p = 0 then { l.hold with switch := true } else { l.hold with leg := true })) ∧
      (code = 3 → l.state ≠ .off → handedTaken s t p op .done ∧ onlyLane s t i ∧
        (let m := { l with hold := if p = 0 then { l.hold with switch := false } else { l.hold with leg := false } };
        t.lane i = if m.state = .down ∧ m.hold = ⟨false, false, false⟩ then m.trainFresh (s.legConfig i) else m)) ∧
      (code = 4 → l.state ≠ .off → onlyLane s t i ∧
        (l.state = .down ∨ h.scan.inFlight ≠ none → handedTaken s t p op .busy ∧ t.lane i = l) ∧
        (l.state ≠ .down → h.scan.inFlight = none → handedTaken s t p op .done ∧
          t.lane i = l.setHalf d { h with scan :=
            (if s.locked i d then { h.scan with inFlight := some ⟨.action, 1, []⟩ }
            else { h.scan with
              last := ⟨some .action, [0, 0, 0, 0, 0, 0], none⟩, count := satInc counterMax h.scan.count }) })) ∧
      (code = 5 → sets h.tx.save) ∧ (code = 6 → sets h.tx.back) ∧ (code = 7 → sets h.tx.keep) ∧
      (∀ t₀, code = 8 → tapOfCode args.tap.val = some t₀ → sets (h.tx.step t₀ args.direction)) ∧
      (∀ n : Fin 4, code = 9 → args.preset.val = n.val → sets (h.tx.preset n)) ∧
      (code = 10 → l.state ≠ .off → handedTaken s t p op .done ∧ onlyLane s t i ∧ t.lane i = l.clearCounters)))

/-! ## The bus -/

/-- BUS_START_ADDRESS at an idle port: 0x3A begins a write or a read part and is acknowledged; any other address is not;
a port that does not acknowledge takes nothing (R161, R162). At a port in a part with no operation out (with one out:
PortCommandsMarkWhatTheyChange), it acts as the stop of that part and then a start (R162, R165, R167); in a write part
that has no data byte the stop takes nothing and leaves the port idle (log 28). POINTER_BYTE and DATA_BYTE_WRITTEN: the
pointer is set from both bytes, high first; a data byte is marked at the pointer's offset, every other entry staying,
the first one fixes the block, and the offset advances within the block (R162, R163, R166). -/
def Obligations.BusPartsBeginAndFillTheBuffer : Prop :=
  (∀ (p : PortId) (addr : BitVec 7) (dir : BusDir) (s : State),
    (acknowledges s p = false → exec (.busStartAddress p addr dir) s = .next s) ∧
    (acknowledges s p = true → (s.port p).phase = .idle → (s.port p).handed = [] →
      exec (.busStartAddress p addr dir) s = .next (s.setPort p
        (if addr = 0x3A#7 then
          { s.port p with phase := if dir = .write then .pointerHigh else .reading, line := .ack }
        else { s.port p with phase := .idle, line := .released }))) ∧
    (acknowledges s p = true → (s.port p).phase.isWrite = true → (s.port p).handed = [] →
      ∃ u, exec (.registerWrite p 0) s = .next u ∧
        exec (.busStartAddress p addr dir) s = exec (.busStartAddress p addr dir) u ∧
        ((s.port p).buffer = ⟨none, []⟩ → u = s.setPort p { s.port p with phase := .idle, line := .released })) ∧
    (acknowledges s p = true → ((s.port p).phase = .reading ∨ (s.port p).phase = .readEnded) →
      (s.port p).handed = [] →
      ∃ u, exec (.readPartEnd p) s = .next u ∧
        exec (.busStartAddress p addr dir) s = exec (.busStartAddress p addr dir) u)) ∧
  (∀ (p : PortId) (b : Byte) (s : State),
    ((s.port p).phase = .pointerHigh → exec (.pointerByte p b) s = .next
      (s.setPort p { s.port p with phase := .pointerLow b, line := .ack })) ∧
    (∀ high, (s.port p).phase = .pointerLow high → exec (.pointerByte p b) s = .next
      (s.setPort p { s.port p with phase := .writing, pointer := high ++ b, line := .ack })) ∧
    ((s.port p).phase = .writing → ∃ t, exec (.dataByteWritten p b) s = .next t ∧
      (let x := s.port p;
      let y := t.port p;
      let off := x.pointer.toNat % 64;
      y.buffer.byteAt off = some b ∧ (∀ o, o ≠ off → y.buffer.byteAt o = x.buffer.byteAt o) ∧
        y.buffer.block = some (x.buffer.block.getD (x.pointer.toNat / 64)) ∧
        y.pointer.toNat / 64 = x.pointer.toNat / 64 ∧ y.pointer.toNat % 64 = (off + 1) % 64 ∧
        t = s.setPort p { x with buffer := y.buffer, pointer := y.pointer, line := .ack })))

/-- READ_BYTE_SENT: the first byte of a read part captures the block its pointer names, later bytes come from that
snapshot, each at the pointer's offset, and the offset advances; an unmapped block reads 0x00 throughout, and so does a
byte of a group refused to the port (R163, R164, R172, R177). HOST_NACK and READ_PART_END: the snapshot is dropped, the
data line is released, and the port status records a read that sent a byte of a refused group; otherwise the status
stays (R162, R165, R180). That the status is set at the NACK is the model's reading (log 20). -/
def Obligations.ReadPartServesTheSnapshot : Prop :=
  ∀ (p : PortId) (s : State),
    ((s.port p).phase = .reading →
      ∃ t, exec (.readByteSent p) s = .next t ∧
        (let x := s.port p;
        let snap := match x.snapshot with
          | some y => y
          | none => capture s p (x.pointer.toNat / 64);
        let off := x.pointer.toNat % 64;
        t = s.setPort p { x with
            snapshot := some snap, line := .data (snap.bytes.getD off 0), pointer := (t.port p).pointer,
            sentRefused := x.sentRefused || snap.refused.getD off false } ∧
          (t.port p).pointer.toNat / 64 = x.pointer.toNat / 64 ∧
          (t.port p).pointer.toNat % 64 = (off + 1) % 64 ∧
          (x.snapshot = none → resolve s p (x.pointer.toNat / 64) = none → (t.port p).line = .data 0) ∧
          (∀ r, x.snapshot = none → resolve s p (x.pointer.toNat / 64) = some r →
            mayRead s p (groupAt s p r off) = false → (t.port p).line = .data 0))) ∧
    (let ended := fun (phase : PortPhase) => (s.setPort p
      { s.port p with
        phase := phase, snapshot := none, sentRefused := false, line := .released,
        status := if (s.port p).sentRefused then
            { (s.port p).status with last := .refused, refused := min 255 ((s.port p).status.refused + 1) }
          else (s.port p).status }).quiet;
    ((s.port p).phase = .reading → (s.port p).snapshot ≠ none →
      ∃ t, exec (.hostNack p) s = .next t ∧ t.quiet = ended .readEnded) ∧
    (((s.port p).phase = .reading ∨ (s.port p).phase = .readEnded) →
      ∃ t, exec (.readPartEnd p) s = .next t ∧ t.quiet = ended .idle))

/-- What the first byte of a read part shows: the byte of the block and offset that the pointer names, each field where
the layouts of 12.3 to 12.5 put it, in the codes of 12.7, and 0x00 for a byte of a group whose read entry is REFUSE at a
leg port and for an offset without a field (R169, R170, R177, R189, R190). NEAR is S through M0 and C through a leg port
(R171); a lane block shows the cable lane behind its number in the view (R21); a leg view shows the part block up to
0x17. That the bits of a byte which no field fills read 0 is the model's choice (log 37). -/
def Obligations.RecordsShowTheirFields : Prop :=
  (∀ (p : PortId) (s : State), (s.port p).phase = .reading → (s.port p).snapshot = none →
    let block := (s.port p).pointer.toNat / 64;
    let off := (s.port p).pointer.toNat % 64;
    ∃ t, exec (.readByteSent p) s = .next t ∧
      (let sends := fun (v : Nat) => (t.port p).line = .data (BitVec.ofNat 8 v);
      let plain := fun (o v : Nat) => off = o → sends v;
      -- the same, where the policy lets the port read field group `g`, and 0x00 where it does not
      let shows := fun (g o v : Nat) => off = o → sends (if p = 0 ∨ s.policy.read.getLsbD g = true then v else 0);
      let two := fun (g o v : Nat) => shows g o (v % 256) ∧ shows g (o + 1) (v / 256);
      let yes := fun (x : Bool) => if x then 1 else 0;
      let inv := fun (x : Polarity) => if x = .inverted then 1 else 0;
      let fom := fun (x : Fom) => x.getD 255;
      -- the part block
      (block = 0 →
        plain 0 (Config.vendorCode.toNat % 256) ∧ plain 1 (Config.vendorCode.toNat / 256) ∧
        plain 2 (Config.partCode.toNat % 256) ∧ plain 3 (Config.partCode.toNat / 256) ∧
        (∀ n : Fin 16, plain (4 + n.val) (s.serial.get n).toNat) ∧ plain 0x14 s.lengthCode.toNat ∧
        plain 0x15 s.part.code ∧ plain 0x16 s.faultCause.code ∧ plain 0x17 (yes s.freeze) ∧
        (p = 0 → plain 0x18 s.hysteresis ∧ plain 0x19 s.pWatch ∧ plain 0x1A s.dDrop ∧ plain 0x1B s.kAlarm) ∧
        (p ≠ 0 → 0x18 ≤ off → sends 0) ∧ (0x1C ≤ off → sends 0)) ∧
      -- a leg record
      (∀ k : LegId, (p = 0 ∧ block = 1 + k.val) ∨ (p = legPort k ∧ block = 1) →
        let c := s.legs.get k;
        let m := s.busy.get k;
        shows 0 0 (s.legState.get k).code ∧ shows 0 1 (s.wiring.laneCount k) ∧ shows 1 2 c.threshold ∧
        shows 1 3 (yes c.lowMargin) ∧ shows 2 4 (yes c.autoRetrain) ∧ shows 3 5 c.sTx.val ∧ shows 3 6 c.cTx.val ∧
        shows 3 7 c.sPartner.val ∧ shows 3 8 c.cPartner.val ∧
        shows 4 9 (yes m.leg + 2 * yes m.lane + 4 * yes m.tune + 8 * yes m.action) ∧ (0x0A ≤ off → sends 0)) ∧
      -- a lane record
      (∀ (x : Fin 8) (i : LaneId), block = 8 + x.val →
        ((p = 0 ∧ s.inverse.get x = some i) ∨ ∃ k : LegId, p = legPort k ∧ (s.current.legs.get k).enabled = true ∧
          (s.wiring.legs.get k)[x.val]? = some i) →
        let l := s.lane i;
        let r := s.route.get i;
        let near := if p = 0 then l.s else l.c;
        let far := if p = 0 then l.c else l.s;
        shows 5 0 i.val ∧ shows 5 1 (r.leg.elim 255 fun k => k.val) ∧ shows 5 2 r.index.val ∧
        shows 5 3 (r.switchLane.elim 255 fun y => y.val) ∧
        shows 5 4 (inv r.cPolarity.rx + 2 * inv r.cPolarity.tx + 4 * inv r.sPolarity.rx + 8 * inv r.sPolarity.tx) ∧
        shows 6 5 l.state.code ∧ shows 6 6 (yes l.hold.switch + 2 * yes l.hold.leg + 4 * yes l.hold.line) ∧
        shows 6 7 l.fc ∧ two 9 8 l.trainings ∧ two 9 0x0A l.failures ∧ two 9 0x0C l.drops ∧ two 9 0x0E l.retrains ∧
        (∀ z ∈ [(0x10, near), (0x20, far)], let o := z.1;
          let h := z.2;
          shows 7 o h.seg.state.code ∧ shows 7 (o + 1) h.seg.reason.code ∧ shows 7 (o + 2) h.seg.own.val ∧
          shows 7 (o + 3) (h.seg.partner.elim 255 fun n => n.val) ∧
          shows 7 (o + 4) (yes h.seg.polaritySuspect + 2 * yes h.seg.marginal) ∧ shows 7 (o + 5) (fom h.seg.finalFom) ∧
          shows 8 (o + 6) (fom h.watch.baseline) ∧ shows 8 (o + 7) (yes h.watch.alarm) ∧ shows 8 (o + 8) h.watch.low ∧
          two 9 (o + 9) h.frameErrors ∧ two 9 (o + 0x0B) h.watchAlarms ∧ (o + 0x0D ≤ off → off < o + 0x10 → sends 0)) ∧
        (0x30 ≤ off → sends 0)) ∧
      -- the pending profile and the policy table
      (p = 0 → block = 0x20 →
        (∀ k : LegId, let l := s.pendingProfile.legs.get k;
          plain (4 * k.val) (yes l.enabled) ∧ plain (4 * k.val + 1) l.base.val ∧ plain (4 * k.val + 2) l.start.val ∧
          plain (4 * k.val + 3) (if l.order = .linear then 0 else 1)) ∧
        (∀ x : Fin 8, plain (0x10 + x.val)
          (inv (s.pendingProfile.lanes.get x).rx + 2 * inv (s.pendingProfile.lanes.get x).tx)) ∧
        plain 0x18 s.applyOutcome.code ∧ plain 0x19 s.failingLeg.val ∧ (0x1A ≤ off → sends 0)) ∧
      (p = 0 → block = 0x21 →
        (∀ n : Fin 20, plain n.val (yes (s.policy.read.getLsbD n.val)) ∧
          plain (0x20 + n.val) (yes (s.policy.write.getLsbD n.val))) ∧
        (0x14 ≤ off → off < 0x20 → sends 0) ∧ (0x34 ≤ off → sends 0)) ∧
      (p = 0 → block = 0x22 →
        (∀ n : Fin 14, plain n.val (yes (s.policy.actions.getLsbD n.val))) ∧ plain 0x0E 0 ∧ plain 0x0F 0 ∧
        plain 0x10 (yes s.policy.far) ∧ (0x11 ≤ off → sends 0)) ∧
      -- the port's own blocks
      (block = 0x30 → let a := (s.port p).action;
        shows 14 0 a.code.toNat ∧ shows 14 1 (if a.args.side = .near then 0 else 1) ∧ shows 14 2 a.args.mask.toNat ∧
        shows 14 3 a.args.tap.val ∧ shows 14 4 (if a.args.direction = .minus then 0 else 1) ∧
        shows 14 5 a.args.preset.val ∧ shows 15 8 a.overall.code ∧
        (∀ n : Fin 8, shows 15 (0x10 + n.val) (a.perLane.get n).code) ∧
        ((off = 6 ∨ off = 7 ∨ (9 ≤ off ∧ off < 0x10) ∨ 0x18 ≤ off) → sends 0)) ∧
      (block = 0x31 → let st := (s.port p).status;
        shows 16 0 st.last.code ∧ two 16 1 (st.discarded.getD 0xFFFF) ∧ shows 17 4 st.refused ∧ shows 17 5 st.busy ∧
        shows 17 6 st.unmapped ∧ (off = 3 ∨ 7 ≤ off → sends 0)) ∧
      (block = 0x32 →
        (∀ n : Fin 3, shows 18 n.val ((s.port p).bitmap.toNat / 256 ^ n.val % 256) ∧
          shows 19 (4 + n.val) ((s.port p).mask.toNat / 256 ^ n.val % 256)) ∧ (off = 3 ∨ 7 ≤ off → sends 0)))) ∧
  -- the codes of 12.7
  [LaneState.off, .down, .train, .ready, .carry, .wait, .fault].map LaneState.code = [0, 1, 2, 3, 4, 5, 6] ∧
  [SegState.idle, .detect, .exchange, .done].map SegState.code = [0, 1, 2, 3] ∧
  [LegState.disabled, .forming, .live].map LegState.code = [0, 1, 2] ∧
  [PartState.loading, .running, .imageFault].map PartState.code = [0, 1, 2] ∧
  [FaultCause.none, .check, .wiring].map FaultCause.code = [0, 1, 2] ∧
  [FailReason.none, .acquireTimeout, .lockLost, .replyTimeout, .tuneTimeout, .noReading, .lowMargin, .partnerRefused,
    .partnerStack].map FailReason.code = [0, 1, 2, 3, 4, 5, 6, 7, 8] ∧
  [ApplyOutcome.none, .done, .absentLeg, .misaligned, .overrun, .badStart, .overlap, .imageFault].map
    ApplyOutcome.code = [0, 1, 2, 3, 4, 5, 6, 7] ∧
  [Overall.none, .done, .partly, .refused, .busy, .reason .absentLeg, .reason .misaligned, .reason .overrun,
    .reason .badStart, .reason .overlap, .reason .imageFault].map Overall.code =
    [0, 1, 2, 3, 4, 18, 19, 20, 21, 22, 23] ∧
  [LaneOutcome.none, .done, .notMapped, .busy, .atLimit, .stackFull, .stackEmpty, .refused].map LaneOutcome.code =
    [0, 1, 2, 3, 4, 5, 6, 7] ∧
  [LastOutcome.ok, .partly, .refused, .busy, .unmapped].map LastOutcome.code = [0, 1, 2, 3, 4]

/-- The tuning record packs each side into 32 bytes, NEAR at 0x00 and FAR at 0x20, NEAR being S through M0 and C through
a leg port (R171): each field of the table of R191, from its low bit to its high bit, at its section bits, as the first
byte of a read part shows it; a byte of a group whose read entry is REFUSE at a leg port is 0x00 (R78, R110, R177, R189,
R190, R192). Fields of a request, a reply or a stack entry that is not there are zero bits. Bits that no field fills are
the model's choice and not stated here (log 37). -/
def Obligations.TuningRecordsPackTheirFields : Prop :=
  ∀ (p : PortId) (s : State) (x : Fin 8) (i : LaneId), (s.port p).phase = .reading → (s.port p).snapshot = none →
    (s.port p).pointer.toNat / 64 = 0x10 + x.val →
    ((p = 0 ∧ s.inverse.get x = some i) ∨ ∃ k : LegId, p = legPort k ∧ (s.current.legs.get k).enabled = true ∧
      (s.wiring.legs.get k)[x.val]? = some i) →
    let off := (s.port p).pointer.toNat % 64;
    let h := if (off < 32) = (p = 0) then (s.lane i).s else (s.lane i).c;
    let index := off % 32;
    let group := if index < 12 then 10 else if index < 18 then 11 else if index < 28 then 12 else 13;
    let yes := fun (b : Bool) => if b then 1 else 0;
    let fom := fun (f : Fom) => f.getD 255;
    let tapCode := fun (y : Tap) => match y with | .pre => 0 | .post1 => 1 | .post2 => 2;
    let answer := fun (o : ReplyOutcome) => match o with
      | .none => 0 | .applied => 1 | .atLimit => 2 | .stackFull => 3 | .stackEmpty => 4 | .badRequest => 5;
    let origin := fun (o : Option Origin) => match o with
      | none => 0 | some .search => 1 | some .watch => 2 | some .action => 3;
    let phase := fun (o : Phase) => match o with
      | .none => 0 | .opening => 1 | .reference => 2 | .trying => 3 | .measuring => 4 | .keeping => 5 | .backing => 6
      | .accepted => 7 | .halted => 8;
    let word := fun (lo : Nat) (y : Setting) =>
      [(lo, 4, y.pre.natAbs), (lo + 4, 5, (48 - y.pre.natAbs - y.post1.natAbs - y.post2.natAbs : Int).toNat - 24),
        (lo + 9, 5, y.post1.natAbs), (lo + 14, 4, (y.post2 % 16).toNat)];
    -- request kind and argument
    let asked : Nat × Nat := match h.req.outstanding.map Prod.fst with
      | none => (0, 0)
      | some (.step y e) => (1, tapCode y + 4 * yes (decide (e = .plus)))
      | some (.trial y e) => (2, tapCode y + 4 * yes (decide (e = .plus)))
      | some .keep => (3, 0)
      | some .back => (4, 0)
      | some (.preset n) => (5, n.val);
    let edge := fun (n : Nat) => h.scan.last.edges.getD n 0;
    -- first section bit, width and value
    let fields : List (Nat × Nat × Nat) :=
      [(0, 4, h.tx.stack.length)] ++ word 4 h.tx.current ++
      [0, 1, 2, 3].flatMap (fun n => (h.tx.stack[n]?).elim [(22 + 18 * n, 18, 0)] (word (22 + 18 * n))) ++
      [(96, 3, asked.1), (99, 3, asked.2), (102, 2, h.req.outstanding.elim 0 fun q => q.2.val),
        (104, 2, h.req.nextTag.val), (106, 2, h.req.lastReply.elim 0 fun q => q.1.val),
        (108, 3, h.req.lastReply.elim 0 fun q => answer q.2), (111, 2, h.resp.lastTag.elim 0 fun n => n.val),
        (113, 3, h.resp.lastTag.elim 0 fun _ => answer h.resp.outcome), (116, 1, yes h.seg.synchronised),
        (117, 1, yes h.seg.ownReady), (118, 1, yes h.seg.partnerReady), (119, 4, h.seg.echo.pre.toNat),
        (123, 6, h.seg.echo.main.toNat), (129, 5, h.seg.echo.post1.toNat), (134, 4, h.seg.echo.post2.toNat),
        (138, 4, h.seg.echo.depth.toNat)] ++
      [(144, 2, origin (h.scan.inFlight.map fun sc => sc.origin)), (146, 2, origin h.scan.last.origin),
        (148, 5, edge 0), (153, 5, edge 1), (158, 5, edge 2), (163, 5, edge 3), (168, 5, edge 4), (173, 5, edge 5),
        (178, 6, edge 0 + edge 1), (184, 6, edge 2 + edge 3), (190, 6, edge 4 + edge 5), (196, 8, fom h.scan.last.fom),
        (204, 16, h.scan.count)] ++
      [(224, 4, phase h.search.phase), (228, 3, h.search.pass), (231, 2, tapCode h.search.tap),
        (233, 1, yes (decide (h.search.dir = .plus))), (234, 2, h.search.unordered), (236, 1, yes h.search.tapMoved),
        (237, 1, yes h.search.passMoved), (240, 8, fom h.search.reference), (248, 8, fom h.search.trialReading)];
    ∃ (t : State) (b : Byte), exec (.readByteSent p) s = .next t ∧ (t.port p).line = .data b ∧
      (p ≠ 0 → s.policy.read.getLsbD group = false → b = 0) ∧
      ((p = 0 ∨ s.policy.read.getLsbD group = true) →
        ∀ f ∈ fields, ∀ m : Nat, m < f.2.1 → (f.1 + m) / 8 = index →
          b.getLsbD ((f.1 + m) % 8) = f.2.2.testBit m)

/-- REGISTER_WRITE of a block that the port's view does not map discards every byte: the status is UNMAPPED with the
lowest byte's address, and nothing else of the record space changes (R167, R169, R170, R172, R180). So is a write within
one read-only group, or of offsets that carry no field, of a mapped block: REFUSED to M0 and to a leg port alike, and
BUSY to a leg port whose busy mask closes the class (R167, R175, R177, R178, R190); that an empty offset of a record
goes with the record's class there is the model's reading (log 16). BUSY of the leg record and every field of the part
block are closed to a leg port besides. -/
def Obligations.WritesWithoutAFieldAreDiscarded : Prop :=
  ∀ (p : PortId) (later : BitVec 8) (s : State) (block off : Nat) (b : Byte) (rest : List (Nat × Byte)),
    let st := (s.port p).status;
    let laneThere := fun (first : Nat) => ∃ x : Fin 8, block = first + x.val ∧ ((p = 0 ∧ s.inverse.get x ≠ none) ∨
      ∃ k : LegId, p = legPort k ∧ (s.current.legs.get k).enabled = true ∧ x.val < s.wiring.laneCount k);
    let mapped := block = 0 ∨ block = 0x30 ∨ block = 0x31 ∨ block = 0x32 ∨ block = 1 ∨
      (p = 0 ∧ (block = 2 ∨ block = 3 ∨ block = 4 ∨ block = 0x20 ∨ block = 0x21 ∨ block = 0x22)) ∨
      laneThere 8 ∨ laneThere 0x10;
    let closed := fun (flag : BusyMask → Bool) =>
      decide (∃ k : LegId, p = legPort k ∧ flag (s.busy.get k) = true);
    (s.port p).phase = .writing → (s.port p).handed = [] →
    (s.port p).buffer = ⟨some block, (off, b) :: rest⟩ →
    ∃ t, exec (.registerWrite p later) s = .next t ∧
      (let ended := fun (x : PortStatus) => t.quiet = (s.setPort p { s.port p with
        phase := .idle, buffer := ⟨none, []⟩, line := .released
        status := { x with discarded := some (block * 64 + off) } }).quiet;
      let denied := fun (busy : Bool) (group : List (Nat × Nat)) =>
        (∀ e ∈ (off, b) :: rest, ∃ z ∈ group, z.1 ≤ e.1 ∧ e.1 < z.2) →
          ended (if busy = true then
            { st with last := .busy, busy := min 255 (st.busy + 1), refused := min 255 st.refused }
          else { st with last := .refused, refused := min 255 (st.refused + 1), busy := min 255 st.busy });
      (resolve s p block = none ↔ ¬ mapped) ∧
      (¬ mapped → ended { st with last := .unmapped, unmapped := min 255 (st.unmapped + 1) }) ∧
      -- the port's own blocks
      (block = 0x30 →
        denied false [(8, 9), (0x10, 0x18)] ∧ denied false [(6, 8), (9, 0x10), (0x18, 64)]) ∧
      (block = 0x31 → denied false [(0, 3)] ∧ denied false [(3, 4), (7, 64)]) ∧
      (block = 0x32 → denied false [(3, 4), (7, 64)]) ∧
      -- the part block
      (block = 0 → denied false [(0, 0x15)] ∧ denied false [(0x15, 0x18)] ∧ denied false [(0x1C, 64)] ∧
        (p ≠ 0 → denied false [(0x18, 0x19)] ∧ denied false [(0x19, 0x1C)])) ∧
      -- leg records
      ((block = 1 ∨ (p = 0 ∧ 2 ≤ block ∧ block ≤ 4)) →
        denied (closed (·.leg)) [(0, 2)] ∧ denied (closed (·.leg)) [(0x0A, 64)] ∧
        (p ≠ 0 → denied (closed (·.leg)) [(9, 0x0A)])) ∧
      -- pending profile and policy table
      (p = 0 → block = 0x20 → denied false [(0x18, 0x1A)] ∧ denied false [(0x1A, 64)]) ∧
      (p = 0 → block = 0x21 → denied false [(0x14, 0x20), (0x34, 64)]) ∧
      (p = 0 → block = 0x22 → denied false [(0x0E, 0x10), (0x11, 64)]) ∧
      -- lane and tuning records
      (laneThere 8 → ∀ group ∈ [[(0, 5)], [(5, 8)], [(0x10, 0x16), (0x20, 0x26)], [(0x16, 0x19), (0x26, 0x29)],
          [(8, 0x10), (0x19, 0x1D), (0x29, 0x2D)], [(0x1D, 0x20), (0x2D, 64)]],
        denied (closed (·.lane)) group) ∧
      (laneThere 0x10 → ∀ group ∈ [[(0, 0x0C), (0x20, 0x2C)], [(0x0C, 0x12), (0x2C, 0x32)],
          [(0x12, 0x1C), (0x32, 0x3C)], [(0x1C, 0x20), (0x3C, 64)]],
        denied (closed (·.tune)) group))

/-- REGISTER_WRITE of a leg record's THRESHOLD group, of either byte or of both: through M0 a threshold written is
stored clamped to 186 and a low-margin accept written as a flag, a byte not written keeps its content, status OK (R24,
R25, R167, R180). Through the leg's own port the same write is BUSY under the LEG busy flag, REFUSED where the policy
refuses it, and stored otherwise (R177, R178). -/
def Obligations.ThresholdWriteIsJudgedAndStored : Prop :=
  ∀ (p : PortId) (later : BitVec 8) (s : State) (k : LegId) (off : Nat) (x : Byte) (rest : List (Nat × Byte)),
    let block := if p = 0 then 1 + k.val else 1;
    let b := (s.port p).buffer;
    let c := s.legs.get k;
    let ended := fun (u : State) (st : PortStatus) => (u.setPort p
      { u.port p with phase := .idle, buffer := ⟨none, []⟩, line := .released, status := st }).quiet;
    let st := (s.port p).status;
    (p = 0 ∨ p = legPort k) → (s.port p).phase = .writing → (s.port p).handed = [] →
    b = ⟨some block, (off, x) :: rest⟩ → (∀ e ∈ b.entries, e.1 = 2 ∨ e.1 = 3) →
    ∃ t, exec (.registerWrite p later) s = .next t ∧
      ((p = 0 ∨ ((s.busy.get k).leg = false ∧ s.policy.write.getLsbD 1 = true)) →
        t.quiet = ended
          { s with legs := s.legs.set k { c with
            threshold := (b.byteAt 2).elim c.threshold fun v => min 186 v.toNat
            lowMargin := (b.byteAt 3).elim c.lowMargin fun v => decide (v ≠ 0) } }
          { st with last := .ok, refused := min 255 st.refused, busy := min 255 st.busy, discarded := none }) ∧
      (p ≠ 0 → (s.busy.get k).leg = true →
        t.quiet = ended s { st with
          last := .busy, busy := min 255 (st.busy + 1), refused := min 255 st.refused,
          discarded := some (64 + off) }) ∧
      (p ≠ 0 → (s.busy.get k).leg = false → s.policy.write.getLsbD 1 = false →
        t.quiet = ended s { st with
          last := .refused, refused := min 255 (st.refused + 1), busy := min 255 st.busy,
          discarded := some (64 + off) })

/-- REGISTER_WRITE stores each field whose byte was written and keeps the others. Through M0: the pending profile, as
written and without a check (R7); the policy tables, their fixed positions at REFUSE (R176); a busy mask (R178); H and
the watch parameters, clamped (R112, R131). Through M0, or through the leg's own port where busy mask and policy allow:
auto-retrain and the start presets (R25, R26, R177); a start preset written with a code from 4 to 7 has the whole group
refused, at the address of its lowest byte (R26, R180). Values wider than a field lose their high bits, and any nonzero
byte is yes (R189). -/
def Obligations.RegisterWritesStoreTheirFields : Prop :=
  ∀ (p : PortId) (later : BitVec 8) (s : State) (k : LegId) (off : Nat) (x : Byte) (rest : List (Nat × Byte)),
    let b := (s.port p).buffer;
    let st := (s.port p).status;
    let ended := fun (u : State) (y : PortStatus) => (u.setPort p
      { u.port p with phase := .idle, buffer := ⟨none, []⟩, line := .released, status := y }).quiet;
    let ok : PortStatus := { st with
      last := .ok, refused := min 255 st.refused, busy := min 255 st.busy, discarded := none };
    let within := fun (block lo hi : Nat) => b.block = some block ∧ ∀ e ∈ b.entries, lo ≤ e.1 ∧ e.1 < hi;
    let yes := fun (old : Bool) (o : Nat) => (b.byteAt o).elim old (fun v => decide (v ≠ 0));
    let polarity := fun (bit : Bool) => if bit then Polarity.inverted else Polarity.normal;
    let own := if p = 0 then 1 + k.val else 1;
    let c := s.legs.get k;
    let mayStore := fun (n : Nat) =>
      p = 0 ∨ (p = legPort k ∧ (s.busy.get k).leg = false ∧ s.policy.write.getLsbD n = true);
    let badPresets := ∃ o ∈ [5, 6, 7, 8], (b.byteAt o).any (fun v => decide (4 ≤ v.toNat % 8)) = true;
    let preset := fun (old : Fin 4) (o : Nat) => (b.byteAt o).elim old (fun v => Fin.ofNat 4 (v.toNat % 8));
    (s.port p).phase = .writing → (s.port p).handed = [] → b.entries = (off, x) :: rest →
    ∃ t, exec (.registerWrite p later) s = .next t ∧
      (p = 0 →
        (within 0x20 0 24 → t.quiet = ended { s with pendingProfile :=
          { legs := Tab.ofFn fun m =>
              { enabled := yes (s.pendingProfile.legs.get m).enabled (4 * m.val)
                base := (b.byteAt (4 * m.val + 1)).elim (s.pendingProfile.legs.get m).base fun v => Fin.ofNat 16 v.toNat
                start := (b.byteAt (4 * m.val + 2)).elim (s.pendingProfile.legs.get m).start fun v => Fin.ofNat 8 v.toNat
                order := (b.byteAt (4 * m.val + 3)).elim (s.pendingProfile.legs.get m).order fun v =>
                  if v = 0 then .linear else .interleaved }
            lanes := Tab.ofFn fun m => (b.byteAt (16 + m.val)).elim (s.pendingProfile.lanes.get m) fun v =>
              ⟨polarity (v.getLsbD 0), polarity (v.getLsbD 1)⟩ } } ok) ∧
        (s.policyLaw → within 0x21 0 20 →
          (∀ n : Fin 20, t.policy.read.getLsbD n.val = yes (s.policy.read.getLsbD n.val) n.val) ∧
          t.quiet = ended { s with policy := { s.policy with read := t.policy.read } } ok) ∧
        (s.policyLaw → within 0x21 32 52 →
          (∀ n : Fin 20, t.policy.write.getLsbD n.val = (decide (n ∈ [1, 2, 3, 14, 17, 18, 19]) &&
            yes (s.policy.write.getLsbD n.val) (32 + n.val))) ∧
          t.quiet = ended { s with policy := { s.policy with write := t.policy.write } } ok) ∧
        (s.policyLaw → within 0x22 0 14 →
          (∀ n : Fin 14, t.policy.actions.getLsbD n.val =
            (decide (n.val < 12) && yes (s.policy.actions.getLsbD n.val) n.val)) ∧
          t.quiet = ended { s with policy := { s.policy with actions := t.policy.actions } } ok) ∧
        (within 0x22 16 17 → t.quiet = ended { s with policy := { s.policy with far := yes s.policy.far 16 } } ok) ∧
        (within (1 + k.val) 9 10 → t.quiet = ended { s with busy := s.busy.set k ((b.byteAt 9).elim (s.busy.get k)
          fun v => ⟨v.getLsbD 0, v.getLsbD 1, v.getLsbD 2, v.getLsbD 3⟩) } ok) ∧
        (within 0 24 25 → t.quiet = ended
          { s with hysteresis := (b.byteAt 24).elim s.hysteresis fun v => min 7 v.toNat } ok) ∧
        (within 0 25 28 → t.quiet = ended
          { s with
            pWatch := (b.byteAt 25).elim s.pWatch fun v => max 1 v.toNat
            dDrop := (b.byteAt 26).elim s.dDrop fun v => min 63 v.toNat
            kAlarm := (b.byteAt 27).elim s.kAlarm fun v => max 1 (min 15 v.toNat) } ok)) ∧
      (mayStore 2 → within own 4 5 → t.quiet = ended
        { s with legs := s.legs.set k { c with autoRetrain := yes c.autoRetrain 4 } } ok) ∧
      (mayStore 3 → within own 5 9 →
        (¬ badPresets → t.quiet = ended
          { s with legs := s.legs.set k { c with
            sTx := preset c.sTx 5, cTx := preset c.cTx 6, sPartner := preset c.sPartner 7,
            cPartner := preset c.cPartner 8 } } ok) ∧
        (badPresets → t.quiet = ended s { st with
          last := .refused, refused := min 255 (st.refused + 1), busy := min 255 st.busy,
          discarded := some (own * 64 + off) }))

/-! ## Write stops of the port's own groups -/

/-- COUNTS_ZERO: marked bytes of 0 zero their counts, and a marked byte of another value has the group refused whole: no
count is zeroed, the refused count rises, and the discarded address is that of the group's lowest marked byte (R180,
R181). That the command stands for the whole write stop is the model's reading (log 11). -/
def Obligations.CountsAreZeroedOrRefusedWhole : Prop :=
  ∀ (p : PortId) (a b c : Option Byte) (s : State),
    acknowledges s p = true → (s.port p).handed = [] → (p = 0 ∨ s.policy.write.getLsbD 17 = true) →
    ¬ (a = none ∧ b = none ∧ c = none) →
    ∃ t, exec (.countsZero p a b c) s = .next t ∧
      (let st := (s.port p).status;
      let zeros := (a = none ∨ a = some 0) ∧ (b = none ∨ b = some 0) ∧ (c = none ∨ c = some 0);
      let lowest := if a ≠ none then 4 else if b ≠ none then 5 else 6;
      t.quiet = (s.setPort p { s.port p with status :=
        if zeros then
          { last := .ok, discarded := none
            refused := min 255 (if a = none then st.refused else 0)
            busy := min 255 (if b = none then st.busy else 0)
            unmapped := if c = none then st.unmapped else 0 }
        else
          { last := .refused, discarded := some (0x31 * 64 + lowest)
            refused := min 255 (st.refused + 1), busy := min 255 st.busy, unmapped := st.unmapped } }).quiet)

/-- BITMAP_CLEAR clears the change flags written as one and keeps the others, and ALERT_MASK_WRITE stores the mask; the
alert line is low exactly while bitmap and mask share a flag (R184, R185). The write's own port may mark only STATUS.
That the command stands for the whole write stop is the model's reading (log 11). -/
def Obligations.BitmapAndMaskAreWritten : Prop :=
  ∀ (p : PortId) (flags : BitVec 20) (s : State), acknowledges s p = true → (s.port p).handed = [] → s.bitmapLaw →
    ((p = 0 ∨ s.policy.write.getLsbD 18 = true) → ∃ t, exec (.bitmapClear p flags) s = .next t ∧
      (∀ g : Fin 20, g ≠ 19 → (t.port p).bitmap.getLsbD g.val =
        ((s.port p).bitmap.getLsbD g.val && !flags.getLsbD g.val)) ∧
      (t.port p).status.last = .ok ∧
      alertLine t p = decide ((t.port p).bitmap &&& (s.port p).mask ≠ 0) ∧ t.offAction p = s.offAction p) ∧
    ((p = 0 ∨ s.policy.write.getLsbD 19 = true) → ∃ t, exec (.alertMaskWrite p flags) s = .next t ∧
      (∀ g : Fin 20, g ≠ 19 → (t.port p).bitmap.getLsbD g.val = (s.port p).bitmap.getLsbD g.val) ∧
      (t.port p).status.last = .ok ∧ alertLine t p = decide ((t.port p).bitmap &&& flags ≠ 0) ∧
      t.offAction p = (s.setPort p { s.port p with mask := flags }).offAction p)

/-! ## Actions -/

/-- The whole-action tests, for every command that issues an action through a port (R145, R175, R179). Its code is NONE
or above 14, or its writer is a leg host and the code is APPLY_PROFILE or SOFT_RESET or has the policy entry REFUSE:
overall REFUSED, REFUSED for each named lane. Otherwise a leg writer's ACTION busy flag: overall BUSY, BUSY for each
named lane. Otherwise STEP with a tap code that names no tap, or PRESET with a preset code from 4 to 7 (R71): REFUSED as
above. NONE stands for each lane not named, and for every lane where the code ignores the mask (R147); the request is
stored, the count of refused or busy rises, and no lane or other state is touched (R144, R180). Where the policy refuses
the leg host the request fields, nothing is stored and no action taken (R144, R177). That the command stands for the
whole write stop is the model's reading (log 11). -/
def Obligations.ActionsThatFailATestAreRefusedWhole : Prop :=
  ∀ (p : PortId) (code : Byte) (args : ActionArgs) (s : State) (c : Instr), issuedAction c = some (p, code, args) →
    acknowledges s p = true → (s.port p).handed = [] →
    let n := code.toNat;
    let st := (s.port p).status;
    let barred := n = 0 ∨ 14 < n ∨ (p ≠ 0 ∧ (n = 13 ∨ n = 14 ∨ s.policy.actions.getLsbD (n - 1) = false));
    let closed := ∃ k : LegId, p = legPort k ∧ (s.busy.get k).action = true;
    let nameless := (n = 8 ∧ args.tap.val = 3) ∨ (n = 9 ∧ 4 ≤ args.preset.val);
    ∃ t, exec c s = .next t ∧
      (let whole := fun (o : Overall) (l : LaneOutcome) => (t.port p).action.code = code ∧
        (t.port p).action.args = args ∧ (t.port p).action.overall = o ∧ (t.port p).handed = [] ∧
        (∀ b : Fin 8, (t.port p).action.perLane.get b =
          if args.mask.getLsbD b.val = true ∧ ¬ (11 ≤ n ∧ n ≤ 14) then l else .none) ∧
        t.quiet.offAction p = s.quiet.offAction p;
      ((p = 0 ∨ s.policy.write.getLsbD 14 = true) →
        (barred ∨ (¬ closed ∧ nameless) → whole .refused .refused ∧ (t.port p).status = { st with
          last := .partly, refused := min 255 (st.refused + 1), busy := min 255 st.busy, discarded := none }) ∧
        (¬ barred → closed → whole .busy .busy ∧ (t.port p).status = { st with
          last := .partly, refused := min 255 st.refused, busy := min 255 (st.busy + 1), discarded := none })) ∧
      (p ≠ 0 → s.policy.write.getLsbD 14 = false → t.quiet = (s.setPort p { s.port p with status := { st with
        last := .refused, refused := min 255 (st.refused + 1), busy := min 255 st.busy,
        discarded := some 0xC00 } }).quiet))

/-- REGISTER_WRITE of the request fields of the action block (R143, R144, R167, R189). With the code byte among the
bytes written it takes the action that the code names, or the refusal of a reserved one, with the request fields as they
then stand: it does what the row of the action does with those fields, and ends the part; so also where operations of an
earlier action are still out. Without the code byte it stores the fields written and takes no action; where the policy
refuses the leg host the request fields it stores nothing (R177). That an action's row is the whole write stop is the
model's reading (log 11), and the operand that says which lanes take their operation later its choice (log 10). -/
def Obligations.RequestWritesTakeTheAction : Prop :=
  ∀ (p : PortId) (later : BitVec 8) (s : State) (off : Nat) (x : Byte) (rest : List (Nat × Byte)),
    let b := (s.port p).buffer;
    let old := (s.port p).action.args;
    let args : ActionArgs :=
      { side := (b.byteAt 1).elim old.side fun v => if v = 0 then .near else .far
        mask := (b.byteAt 2).getD old.mask
        tap := (b.byteAt 3).elim old.tap fun v => Fin.ofNat 4 v.toNat
        direction := (b.byteAt 4).elim old.direction fun v => if v = 0 then .minus else .plus
        preset := (b.byteAt 5).elim old.preset fun v => Fin.ofNat 8 v.toNat };
    let ended := fun (u : State) => u.setPort p
      { u.port p with phase := .idle, buffer := ⟨none, []⟩, line := .released };
    (s.port p).phase = .writing → b = ⟨some 0x30, (off, x) :: rest⟩ → (∀ e ∈ b.entries, e.1 < 6) →
    (∀ c : Instr, off = 0 → acknowledges s p = true → issuedAction c = some (p, x, args) →
      (later = issuedLater c ∨ x.toNat = 0 ∨ 11 ≤ x.toNat) →
      ∃ u, exec c s = .next u ∧ exec (.registerWrite p later) s = .next (ended u)) ∧
    ((∀ e ∈ b.entries, e.1 ≠ 0) → (s.port p).handed = [] →
      ∃ t, exec (.registerWrite p later) s = .next t ∧
        (let st := (s.port p).status;
        ((p = 0 ∨ s.policy.write.getLsbD 14 = true) →
          t.quiet = (ended (s.setPort p { s.port p with
            action := { (s.port p).action with args := args }
            status := { st with
              last := .ok, refused := min 255 st.refused, busy := min 255 st.busy, discarded := none } })).quiet) ∧
        (p ≠ 0 → s.policy.write.getLsbD 14 = false →
          t.quiet = (ended (s.setPort p { s.port p with
            status := { st with
              last := .refused, refused := min 255 (st.refused + 1), busy := min 255 st.busy,
              discarded := some (0xC00 + off) } })).quiet)))

/-- RETRAIN: each named lane in TRAIN, READY, CARRY, WAIT or FAULT trains fresh with fc 0, outcome DONE; one in DOWN is
BUSY and one in OFF NOT_MAPPED; lanes not named are left alone, but those in CARRY beside a named lane that left it,
which go to READY (R50, R56, R146 to R149). That the command stands for the whole write stop is the model's reading (log
11). -/
def Obligations.RetrainTrainsTheNamedLanes : Prop :=
  ∀ (p : PortId) (args : ActionArgs) (s : State), actionReady s p 1 → viewOnce s p → s.carryLaw →
    ∃ t, exec (.retrain p args 0) s = .next t ∧ actionReported s t p 1 args ∧
      (t.offLanes).offAction p = (s.offLanes).offAction p ∧ besideNamed s t p args ∧
      (∀ b i, names s p args b i →
        ((s.lane i).state ≠ .off → (s.lane i).state ≠ .down →
          (t.port p).action.perLane.get b = .done ∧
          t.lane i = Lane.trainFresh (s.legConfig i) { s.lane i with fc := 0 }) ∧
        ((s.lane i).state = .down → (t.port p).action.perLane.get b = .busy ∧ t.lane i = s.lane i) ∧
        ((s.lane i).state = .off → (t.port p).action.perLane.get b = .notMapped ∧ t.lane i = s.lane i))

/-- HOLD: each named lane not in OFF takes the writer's member, SWITCH for M0 and LEG for a leg port, and is in DOWN,
outcome DONE; RELEASE: each named lane not in OFF loses that member, and a lane in DOWN left with none trains fresh,
outcome DONE (R51, R52, R150, R151). That the command stands for the whole write stop is the model's reading (log 11).
-/
def Obligations.HoldAndReleaseMoveTheNamedLanes : Prop :=
  ∀ (p : PortId) (args : ActionArgs) (s : State), viewOnce s p →
    (actionReady s p 2 → s.carryLaw → ∃ t, exec (.hold p args 0) s = .next t ∧ actionReported s t p 2 args ∧
      (t.offLanes).offAction p = (s.offLanes).offAction p ∧ besideNamed s t p args ∧
      (∀ b i, names s p args b i → (s.lane i).state ≠ .off →
        (t.port p).action.perLane.get b = .done ∧
        t.lane i = (s.lane i).addHold ((s.lane i).hold.withMember p true) ∧ (t.lane i).state = .down ∧
        (t.lane i).hold = (if p = 0 then { (s.lane i).hold with switch := true }
          else { (s.lane i).hold with leg := true }) ∧
        ((s.lane i).state ≠ .down → (t.lane i).fc = 0) ∧
        (t.lane i).trainings = (s.lane i).trainings ∧ (t.lane i).drops = (s.lane i).drops) ∧
      (∀ b i, names s p args b i → (s.lane i).state = .off →
        (t.port p).action.perLane.get b = .notMapped ∧ t.lane i = s.lane i)) ∧
    (actionReady s p 3 → ∃ t, exec (.release p args 0) s = .next t ∧ actionReported s t p 3 args ∧
      (t.offLanes).offAction p = (s.offLanes).offAction p ∧ t.legState = s.legState ∧
      (∀ b i, names s p args b i → (s.lane i).state ≠ .off →
        (let l := { s.lane i with hold := if p = 0 then { (s.lane i).hold with switch := false }
          else { (s.lane i).hold with leg := false } };
        (t.port p).action.perLane.get b = .done ∧
          t.lane i = if l.state = .down ∧ l.hold = ⟨false, false, false⟩ then l.trainFresh (s.legConfig i) else l)) ∧
      (∀ j, (∀ b, ¬ names s p args b j) → t.lane j = s.lane j))

/-- MEASURE: an ACTION scan starts on the chosen receiver of each named lane that is neither OFF nor DOWN and whose
receiver is free, outcome DONE; a receiver without lock records NO READING at once; DOWN or a scan in flight is BUSY
(R104, R108, R154). That the command stands for the whole write stop is the model's reading (log 11). -/
def Obligations.MeasureStartsScans : Prop :=
  ∀ (p : PortId) (args : ActionArgs) (s : State), actionReady s p 4 → viewOnce s p →
    ∃ t, exec (.measure p args 0) s = .next t ∧ actionReported s t p 4 args ∧
      (t.offLanes).offAction p = (s.offLanes).offAction p ∧ t.legState = s.legState ∧
      (∀ j, (∀ b, ¬ names s p args b j) → t.lane j = s.lane j) ∧
      (∀ b i, names s p args b i →
        (let d := sideOf p args.side;
        let x := (s.half i d).scan;
        let free := (s.lane i).state ≠ .off ∧ (s.lane i).state ≠ .down ∧ x.inFlight = none;
        ((s.lane i).state = .off → (t.port p).action.perLane.get b = .notMapped ∧ t.lane i = s.lane i) ∧
        ((s.lane i).state ≠ .off → ((s.lane i).state = .down ∨ x.inFlight ≠ none) →
          (t.port p).action.perLane.get b = .busy ∧ t.lane i = s.lane i) ∧
        (free → s.locked i d = true → (t.port p).action.perLane.get b = .done ∧
          t.lane i = (s.lane i).setHalf d { s.half i d with scan := { x with inFlight := some ⟨.action, 1, []⟩ } }) ∧
        (free → s.locked i d = false → (t.port p).action.perLane.get b = .done ∧
          t.lane i = (s.lane i).setHalf d { s.half i d with scan :=
            { x with
              last := ⟨some .action, [0, 0, 0, 0, 0, 0], none⟩
              count := satInc counterMax x.count } })))

/-- SAVE, RESTORE, DISCARD, STEP and PRESET: on each named lane that is not OFF, whose side the writer may reach and
whose segment is not in EXCHANGE, the chosen transmitter takes the operation, the per-lane outcome is the operation's,
and nothing else of the lane changes; OFF is NOT_MAPPED, a FAR side closed to a leg writer REFUSED, EXCHANGE BUSY (R65,
R67 to R73, R153). That the command stands for the whole write stop is the model's reading (log 11). -/
def Obligations.SettingActionsReachTheTransmitter : Prop :=
  ∀ (p : PortId) (args : ActionArgs) (s : State) (t₀ : Tap) (n : Fin 4),
    let took := fun (c : Instr) (code : Nat) (op : TxUnit → TxUnit × ReplyOutcome) =>
      ∃ t, exec c s = .next t ∧ actionReported s t p code args ∧
        (t.offLanes).offAction p = (s.offLanes).offAction p ∧ t.legState = s.legState ∧
        (∀ j, (∀ b, ¬ names s p args b j) → t.lane j = s.lane j) ∧
        (∀ b i, names s p args b i →
          (let d := sideOf p args.side;
          let h := s.half i d;
          let closed := p ≠ 0 ∧ args.side = .far ∧ s.policy.far = false;
          ((s.lane i).state = .off → (t.port p).action.perLane.get b = .notMapped ∧ t.lane i = s.lane i) ∧
          ((s.lane i).state ≠ .off → closed →
            (t.port p).action.perLane.get b = .refused ∧ t.lane i = s.lane i) ∧
          ((s.lane i).state ≠ .off → ¬ closed → h.seg.state = .exchange →
            (t.port p).action.perLane.get b = .busy ∧ t.lane i = s.lane i) ∧
          ((s.lane i).state ≠ .off → ¬ closed → h.seg.state ≠ .exchange →
            (t.port p).action.perLane.get b = settingOutcome (op h.tx).2 ∧
            t.lane i = (s.lane i).setHalf d { h with tx := (op h.tx).1 })))
    viewOnce s p →
    (actionReady s p 5 → took (.save p args 0) 5 TxUnit.save) ∧
    (actionReady s p 6 → took (.restore p args 0) 6 TxUnit.back) ∧
    (actionReady s p 7 → took (.discard p args 0) 7 TxUnit.keep) ∧
    (actionReady s p 8 → tapOfCode args.tap.val = some t₀ →
      took (.step p args 0) 8 (fun u => u.step t₀ args.direction)) ∧
    (actionReady s p 9 → args.preset.val = n.val → took (.preset p args 0) 9 (fun u => u.preset n))

/-- CLEAR_COUNTERS zeroes the eight lane counters and both scan counts of each named lane not in OFF, outcome DONE, and
touches nothing else (R57, R103, R152). That the command stands for the whole write stop is the model's reading (log
11). -/
def Obligations.ClearCountersZeroesTheNamedLanes : Prop :=
  ∀ (p : PortId) (args : ActionArgs) (s : State), actionReady s p 10 → viewOnce s p →
    ∃ t, exec (.clearCounters p args 0) s = .next t ∧ actionReported s t p 10 args ∧
      (t.offLanes).offAction p = (s.offLanes).offAction p ∧ t.legState = s.legState ∧
      (∀ j, (∀ b, ¬ names s p args b j) → t.lane j = s.lane j) ∧
      (∀ b i, names s p args b i → (s.lane i).state ≠ .off →
        (t.port p).action.perLane.get b = .done ∧
        t.lane i = { s.lane i with
          trainings := 0, failures := 0, drops := 0, retrains := 0
          s := { (s.lane i).s with
            frameErrors := 0, watchAlarms := 0, scan := { (s.lane i).s.scan with count := 0 } }
          c := { (s.lane i).c with
            frameErrors := 0, watchAlarms := 0, scan := { (s.lane i).c.scan with count := 0 } } }) ∧
      (∀ b i, names s p args b i → (s.lane i).state = .off →
        (t.port p).action.perLane.get b = .notMapped ∧ t.lane i = s.lane i)

/-- FREEZE sets the flag and stops the period timer unless the flag was set; THAW clears it and, in RUNNING, starts a
full period unless the flag was clear; both are DONE, whatever the mask (R140, R141, R155). That the command stands for
the whole write stop is the model's reading (log 11). -/
def Obligations.FreezeAndThawSetTheWatch : Prop :=
  ∀ (p : PortId) (args : ActionArgs) (s : State),
    (actionReady s p 11 → ∃ t, exec (.freeze p args) s = .next t ∧ partReported s t p 11 args .done ∧
      t.quiet.offAction p = ({ s with
        freeze := true, watchTimer := if s.freeze then s.watchTimer else none }.quiet).offAction p) ∧
    (actionReady s p 12 → ∃ t, exec (.thaw p args) s = .next t ∧ partReported s t p 12 args .done ∧
      t.quiet.offAction p = ({ s with
        freeze := false
        watchTimer := if s.freeze then (if s.part = PartState.running then some (s.pWatch * 10) else none)
          else s.watchTimer }.quiet).offAction p)

/-- APPLY_PROFILE through M0 in RUNNING: an invalid pending profile is refused whole, the reason in the apply outcome
and the overall outcome; a valid one becomes current with its route table, lanes of legs it disables go OFF, lanes of
legs it enables leave OFF, and every lane of a leg that goes on keeps its state and is handed its case (R14, R16 to R20,
R156). In IMAGE_FAULT it is refused with IMAGE_FAULT, which the apply outcome shows with failing leg 0 (R14, R158). That
cases wait in a list is the model's reading (log 12). That the command stands for the whole write stop is the model's
reading (log 11). -/
def Obligations.ApplyProfileTakesOrRefusesWhole : Prop :=
  ∀ (args : ActionArgs) (s : State), actionReady s 0 13 → s.routeLaw →
    ∃ t, exec (.applyProfile 0 args) s = .next t ∧
      (s.part = .imageFault → partReported s t 0 13 args (.reason .imageFault) ∧
        t.quiet.offAction 0 = ({ s with applyOutcome := .imageFault, failingLeg := 0 }.quiet).offAction 0) ∧
      (∀ r k, s.part = .running → validate s.wiring s.pendingProfile = some (r, k) →
        partReported s t 0 13 args (.reason r) ∧
        t.quiet.offAction 0 = ({ s with applyOutcome := r, failingLeg := k }.quiet).offAction 0) ∧
      (s.part = .running → validate s.wiring s.pendingProfile = none →
        partReported s t 0 13 args .done ∧ t.current = s.pendingProfile ∧ t.applyOutcome = .done ∧
        t.failingLeg = 0 ∧ t.routeLaw ∧
        (t.offLanes).offAction 0 = ({ s with
          current := t.current, route := t.route, inverse := t.inverse, applyOutcome := .done,
          failingLeg := 0 }.offLanes).offAction 0 ∧
        (∀ i, s.legOf i = none → t.lane i = s.lane i) ∧
        (∀ i k, s.legOf i = some k →
          (let was := (s.current.legs.get k).enabled;
          let now := (s.pendingProfile.legs.get k).enabled;
          (was = true → now = false → t.lane i = (s.lane i).enterOff) ∧
          (was = false → now = false → t.lane i = s.lane i) ∧
          (was = false → now = true → (t.lane i).hold = ⟨false, false, s.legLines.get k⟩ ∧
            (t.lane i).sPair = (t.route.get i).switchLane ∧
            (t.lane i).state = if s.legLines.get k then .down else .train) ∧
          (was = true → now = true → ∃ c : ApplyCase,
            (c.moves = true ↔ (s.route.get i).switchLane ≠ (t.route.get i).switchLane) ∧
            (c.changed = true ↔ ((s.route.get i).switchLane ≠ (t.route.get i).switchLane ∨
              (s.route.get i).sPolarity ≠ (t.route.get i).sPolarity ∨
              (s.current.legs.get k).order ≠ (s.pendingProfile.legs.get k).order)) ∧
            t.lane i = { s.lane i with
              cases := (s.lane i).cases ++ [c], sPair := if c.moves then none else (s.lane i).sPair }))) ∧
        (∀ k, t.legState.get k = if (s.pendingProfile.legs.get k).enabled = false then .disabled
          else if (s.current.legs.get k).enabled then s.legState.get k else .forming))

/-- SOFT_RESET through M0. In RUNNING every lane keeps its hold set and takes fc 0 and zeroed counters; both sides take
the SOFT_RESET values of the segment, the exchange, the scanner, the search and the watch record, with the start preset
of the leg (P0 in OFF) and an empty stack; a lane not in OFF goes to DOWN with its own session numbers kept, and trains
fresh if nothing holds it; enabled legs are FORMING and the watch is thawed with a full period (R59, R76, R102, R129,
R130). In IMAGE_FAULT it is refused with IMAGE_FAULT and changes nothing (R157, R158). That the command stands for the
whole write stop is the model's reading (log 11). -/
def Obligations.SoftResetRestartsTheLanes : Prop :=
  ∀ (args : ActionArgs) (s : State), actionReady s 0 14 →
    ∃ t, exec (.softReset 0 args) s = .next t ∧
      (s.part = .imageFault → partReported s t 0 14 args (.reason .imageFault) ∧
        t.quiet.offAction 0 = s.quiet.offAction 0) ∧
      (s.part = .running → partReported s t 0 14 args .done ∧
        (t.offLanes).offAction 0 =
          ({ s with freeze := false, watchTimer := some (s.pWatch * 10) }.offLanes).offAction 0 ∧
        (∀ k, t.legState.get k = if (s.current.legs.get k).enabled then .forming else s.legState.get k) ∧
        (∀ i : LaneId, (t.lane i).hold = (s.lane i).hold ∧ (t.lane i).fc = 0 ∧ (t.lane i).failures = 0 ∧
          (t.lane i).drops = 0 ∧ (t.lane i).retrains = 0 ∧ (t.lane i).sPair = (s.lane i).sPair ∧
          (t.lane i).cases = (s.lane i).cases ∧
          (let trains := (s.lane i).state ≠ .off ∧ (s.lane i).hold = ⟨false, false, false⟩;
          (∀ e : Bool, let d := if e then Side.S else Side.C;
            t.half i d =
              { seg :=
                  { state := if trains then .detect else .idle
                    own := if trains then (s.half i d).seg.own + 1 else (s.half i d).seg.own
                    partner := none, reason := .none, polaritySuspect := false, marginal := false,
                    tAcquire := if trains then some 60 else none
                    tRelock := none, tTune := none, synchronised := false, ownReady := false, partnerReady := false,
                    echo := ⟨0, 0, 0, 0, 0⟩, finalFom := none }
                tx := ⟨presetSetting (if (s.lane i).state = .off then 0
                  else if e then (s.legConfig i).sTx else (s.legConfig i).cTx), []⟩
                resp := ⟨none, .none⟩
                req := ⟨none, none, 0, none, none⟩
                search := ⟨.none, 0, .post1, .minus, none, none, 0, false, false, none⟩
                scan := ⟨none, false, ⟨none, [0, 0, 0, 0, 0, 0], none⟩, 0⟩
                watch := ⟨none, false, 0⟩
                frameErrors := 0
                watchAlarms := 0 }) ∧
          (t.lane i).state = (if (s.lane i).state = .off then .off else if trains then .train else .down) ∧
          (t.lane i).trainings = (if trains then 1 else 0))))

/-! ## Rules of values -/

/-- The figure of merit (R111): its formula over the three heights, its bounds and the manual's examples; NO READING is
shown by the code 255, which no figure of merit has; and every recorded figure of merit, reference and baseline stays a
number from 0 to 186 or NO READING at every step. The four results of a comparison of a new reading against a reference
(R113): UNORDERED where either is NO READING, and otherwise EQUAL, BETTER or WORSE as their difference d lies in -H to
H, above H or below -H; with the manual's examples. -/
def Obligations.FiguresOfMeritFollowTheirFormulaAndOrder : Prop :=
  (∀ (a b c d e f : Fin 32), let hu := a.val + b.val;
    let hm := c.val + d.val;
    let hl := e.val + f.val;
    figureOfMerit [a.val, b.val, c.val, d.val, e.val, f.val] =
      2 * min hu (min hm hl) + (hu + hm + hl) / 3 ∧
    figureOfMerit [a.val, b.val, c.val, d.val, e.val, f.val] ≤ 186) ∧
  figureOfMerit [0, 0, 0, 0, 0, 0] = 0 ∧ figureOfMerit [31, 31, 31, 31, 31, 31] = 186 ∧
  figureOfMerit [0, 0, 31, 31, 31, 31] = 41 ∧
  fomCode none = 255 ∧ (∀ f : Nat, f ≤ 186 → fomCode (some f) ≠ 255) ∧
  (∀ s t : State, s.readingLaw → Machine.step s = .next t → t.readingLaw) ∧
  (∀ (hyst : Nat) (x : Fom), compareReadings hyst none x = .unordered ∧ compareReadings hyst x none = .unordered) ∧
  (∀ (hyst new ref : Nat), let d : Int := (new : Int) - (ref : Int);
    (-(hyst : Int) ≤ d ∧ d ≤ hyst ↔ compareReadings hyst (some new) (some ref) = .equal) ∧
    ((hyst : Int) < d ↔ compareReadings hyst (some new) (some ref) = .better) ∧
    (d < -(hyst : Int) ↔ compareReadings hyst (some new) (some ref) = .worse)) ∧
  compareReadings 2 (some 80) (some 77) = .better ∧ compareReadings 2 (some 79) (some 77) = .equal ∧
  compareReadings 2 (some 74) (some 77) = .worse ∧
  (∀ new ref : Nat, compareReadings 0 (some new) (some ref) = .equal ↔ new = ref)

/-- A step of a tap (R63): possible when the new value is in the tap's range and the main tap computed with it is at
least 24; then the tap and the main tap take their new values and the other two taps stay, and otherwise nothing
changes. SAVE (R70): STACK_FULL at depth 8 and nothing changes; otherwise a copy of the current setting is pushed, the
depth rises by one, and the current setting is unchanged; no exchange request but TRY adds an entry. The other
operations (R65 to R69): STEP is a step, AT_LIMIT where it is impossible; TRY is STACK_FULL at depth 8, and otherwise a
step that pushes the old setting; KEEP and BACK are STACK_EMPTY at depth 0, and otherwise remove the top entry, which
BACK makes the current setting; PRESET takes one of the four settings of R62 and empties the stack. After an APPLIED
TRY, BACK gives back the unit as it was, and KEEP the stepped setting over the old stack. The per-lane outcome of each
operation outcome (R72), and the overall outcome from the per-lane outcomes of the named lanes (R147). -/
def Obligations.SettingOperationsFollowTheirRules : Prop :=
  (∀ (u : TxUnit) (d : Direction), let δ : Int := if d = .plus then 1 else -1;
    let main := fun (x : Setting) => (48 : Int) - x.pre.natAbs - x.post1.natAbs - x.post2.natAbs;
    let judged := fun (t : Tap) (x : Setting) (inRange : Prop) =>
      (inRange ∧ 24 ≤ main x → u.step t d = (⟨x, u.stack⟩, .applied) ∧ x.main = main x) ∧
      (¬ (inRange ∧ 24 ≤ main x) → u.step t d = (u, .atLimit));
    judged .pre { u.current with pre := u.current.pre + δ } (-10 ≤ u.current.pre + δ ∧ u.current.pre + δ ≤ 0) ∧
    judged .post1 { u.current with post1 := u.current.post1 + δ }
      (-18 ≤ u.current.post1 + δ ∧ u.current.post1 + δ ≤ 0) ∧
    judged .post2 { u.current with post2 := u.current.post2 + δ }
      (-4 ≤ u.current.post2 + δ ∧ u.current.post2 + δ ≤ 4)) ∧
  (∀ (u : TxUnit), u.stack.length ≤ 8 →
    (u.stack.length = 8 → u.save = (u, .stackFull)) ∧
    (u.stack.length ≠ 8 → u.save = (⟨u.current, u.current :: u.stack⟩, .applied) ∧
      (u.save).1.stack.length = u.stack.length + 1) ∧
    (∀ q : Request, u.stack.length < (u.serve q).1.stack.length → ∃ t d, q = .trial t d)) ∧
  (∀ (u : TxUnit) (t : Tap) (d : Direction), (u.trial t d).2 = .applied →
    (u.trial t d).1.back = (u, .applied) ∧ (u.trial t d).1.keep = ((u.step t d).1, .applied) ∧
      (u.step t d).2 = .applied) ∧
  (∀ (u : TxUnit) (t : Tap) (d : Direction),
    (u.stack.length = 8 → u.trial t d = (u, .stackFull)) ∧
    (u.stack.length < 8 → (u.step t d).2 = .applied →
      u.trial t d = (⟨(u.step t d).1.current, u.current :: u.stack⟩, .applied)) ∧
    (u.stack.length < 8 → (u.step t d).2 = .atLimit → u.trial t d = (u, .atLimit)) ∧
    u.serve (.step t d) = u.step t d ∧ u.serve (.trial t d) = u.trial t d ∧ u.serve .keep = u.keep ∧
    u.serve .back = u.back ∧ ∀ n : Fin 4, u.serve (.preset n) = u.preset n) ∧
  (∀ (u : TxUnit),
    (u.stack = [] → u.keep = (u, .stackEmpty) ∧ u.back = (u, .stackEmpty)) ∧
    (∀ top rest, u.stack = top :: rest → u.keep = (⟨u.current, rest⟩, .applied) ∧ u.back = (⟨top, rest⟩, .applied)) ∧
    u.preset 0 = (⟨⟨0, 0, 0⟩, []⟩, .applied) ∧ u.preset 1 = (⟨⟨-2, -6, 0⟩, []⟩, .applied) ∧
    u.preset 2 = (⟨⟨0, -12, 0⟩, []⟩, .applied) ∧ u.preset 3 = (⟨⟨-4, -12, 2⟩, []⟩, .applied)) ∧
  [presetSetting 0, presetSetting 1, presetSetting 2, presetSetting 3].map Setting.main = [48, 40, 36, 30] ∧
  [ReplyOutcome.applied, .atLimit, .stackFull, .stackEmpty, .badRequest].map settingOutcome =
    [.done, .atLimit, .stackFull, .stackEmpty, .refused] ∧
  (∀ (mask : BitVec 8) (outs : Tab 8 LaneOutcome), let named := fun (b : Fin 8) => mask.getLsbD b.val = true;
    ((∀ b, named b → outs.get b = .done) → overallOf mask outs = .done) ∧
    ((∃ b, named b ∧ outs.get b = .done) → (∃ b, named b ∧ outs.get b ≠ .done) → overallOf mask outs = .partly) ∧
    ((∃ b, named b) → (∀ b, named b → outs.get b ≠ .done) → overallOf mask outs = .refused))

/-- Routing (R8, R11): under a valid profile every lane of an enabled leg is routed to one switch lane of its leg's
block, no switch lane is routed to two cable lanes, and the inverse table gives each switch lane its cable lane. -/
def Obligations.ValidProfileRoutesOneToOne : Prop :=
  ∀ (raw : RawWiring) (p : Profile), wiringValid raw = true → validate (installWiring raw) p = none →
    let w := installWiring raw;
    (∀ (k : LegId) (i : LaneId), (w.legs.get k).contains i = true → (p.legs.get k).enabled = true →
      ∃ x : SwitchLane, (routeEntry w p i).switchLane = some x ∧ (routeEntry w p i).leg = some k ∧
        (p.legs.get k).base.val ≤ x.val ∧ x.val < (p.legs.get k).base.val + w.laneCount k ∧
        (inverseTable (routeTable w p)).get x = some i) ∧
    (∀ (i j : LaneId) (x : SwitchLane), (routeEntry w p i).switchLane = some x →
      (routeEntry w p j).switchLane = some x → i = j)

/-! ## Laws that every step keeps -/

/-- Every transmitter keeps the law of the setting and of the stack (R61, R64). -/
def Obligations.StepsKeepTheSettingLaw : Prop :=
  ∀ s t : State, s.settingLaw → Machine.step s = .next t → t.settingLaw

/-- The laws of the hold set and of the failure count are kept (R44, R51). -/
def Obligations.StepsKeepTheHoldAndFailureLaws : Prop :=
  ∀ s t : State, s.laneLaw → Machine.step s = .next t → t.laneLaw

/-- The segments of a lane stay in states that its lane state allows (R39, R42, R43, R55). A segment in DETECT has no
partner session, no flag of the exchange, no request, no stored reply and no search (R32, R87, R91, R94, R129). -/
def Obligations.StepsKeepTheSegmentLaw : Prop :=
  ∀ s t : State, Machine.step s = .next t →
    (s.segmentLaw → t.segmentLaw) ∧ (s.detectLaw → t.detectLaw)

/-- The laws of the leg are kept: a lane is in CARRY exactly while its leg is LIVE, OFF exactly while its leg is not
enabled, and the route table and its inverse are those of the wiring record and the current profile (R12, R18, R40, R54,
R55). -/
def Obligations.StepsKeepTheLegLaw : Prop :=
  ∀ s t : State, s.legLaw → Machine.step s = .next t → t.legLaw

/-- The law of the route map is kept: the wiring record stays lawful and the current profile valid against it, and lane
operations out through a leg's port stay those of lanes of the leg (R2, R12, R15, R16, R146, R150; log 10). Where these
laws hold, no switch lane is routed to two cable lanes, every cable lane of an enabled leg is routed to exactly one
switch lane of its leg's block, and the inverse table gives it back (R11); every wired lane belongs to its leg (R10);
and no view shows a cable lane under two numbers (R21). -/
def Obligations.StepsKeepTheRouteMapLaw : Prop :=
  (∀ s t : State, s.legLaw → s.mapLaw → s.handedLaw → Machine.step s = .next t → t.mapLaw ∧ t.handedLaw) ∧
  (∀ s : State, s.legLaw → s.mapLaw →
    (∀ (i j : LaneId) (x : SwitchLane), (s.route.get i).switchLane = some x → (s.route.get j).switchLane = some x →
      i = j) ∧
    (∀ (i : LaneId) (k : LegId), s.legOf i = some k → (s.current.legs.get k).enabled = true →
      ∃ x : SwitchLane, (s.route.get i).switchLane = some x ∧ (s.current.legs.get k).base.val ≤ x.val ∧
        x.val < (s.current.legs.get k).base.val + s.wiring.laneCount k ∧ s.inverse.get x = some i) ∧
    s.wiringLaw ∧ ∀ p : PortId, viewOnce s p)

/-- Change bitmaps mark only groups their view maps, in every state where the route and leg laws hold (R182). -/
def Obligations.StepsKeepTheBitmapLaw : Prop :=
  ∀ s t : State, s.legLaw → s.bitmapLaw → Machine.step s = .next t → t.bitmapLaw

/-- Counters, configuration fields, holding buffers and the policy table's fixed positions stay within what the manual
gives them (R24, R57, R112, R131, R166, R176, R180). -/
def Obligations.StepsKeepTheRanges : Prop :=
  ∀ s t : State, Machine.step s = .next t →
    (s.counterLaw → t.counterLaw) ∧ (s.configLaw → t.configLaw) ∧ (s.bufferLaw → t.bufferLaw) ∧
      (s.policyLaw → t.policyLaw)

/-- What a leg host sends through its own port reaches no lane, leg record or port of another leg, and none of the
part's configuration: the policy table, the busy masks, the profiles, the wiring, H and the watch parameters (R150,
R170, R174, R175). Its premises are laws that every step keeps (StepsKeepTheRouteMapLaw). -/
def Obligations.LegHostReachesOnlyItsLeg : Prop :=
  ∀ (c : Instr) (s t : State) (k : LegId), commandPort c = some (legPort k) → s.wiringLaw →
    (∀ op ∈ (s.port (legPort k)).handed, s.legOf op.lane = some k) → exec c s = .next t →
    (∀ i, s.legOf i ≠ some k → t.lane i = s.lane i) ∧
    (∀ m, m ≠ k → t.legs.get m = s.legs.get m ∧ t.legState.get m = s.legState.get m) ∧
    (∀ q, q ≠ legPort k → { t.port q with bitmap := (s.port q).bitmap } = s.port q) ∧
    t.policy = s.policy ∧ t.busy = s.busy ∧ t.current = s.current ∧ t.pendingProfile = s.pendingProfile ∧
    t.applyOutcome = s.applyOutcome ∧ t.wiring = s.wiring ∧ t.route = s.route ∧ t.inverse = s.inverse ∧
    t.hysteresis = s.hysteresis ∧ t.pWatch = s.pWatch ∧ t.dDrop = s.dDrop ∧ t.kAlarm = s.kAlarm ∧
    t.part = s.part ∧ t.cRx = s.cRx ∧ t.sRx = s.sRx ∧ t.legLines = s.legLines

/-- An event at a lane, an operation that a lane takes of an action, and the end of a read part by NACK or stop, whose
port status may change, mark, at every port, exactly the mapped groups whose content as that port's view shows it has
changed, and keep the marks that stood; so does the release of a leg's reset line at every port but the leg's own, whose
marks it clears (R182, R183, R185). -/
def Obligations.LaneEventsMarkWhatTheyChange : Prop :=
  ∀ (c : Instr) (s t : State), s.bitmapLaw → exec c s = .next t →
    let marks := fun (p : PortId) => ∀ g : ChangeGroup, (t.port p).bitmap.getLsbD g.val =
      (groupMapped t p g && ((s.port p).bitmap.getLsbD g.val || decide (groupContent s p g ≠ groupContent t p g)));
    (((∃ r, c = .signalLost r ∨ c = .lockLost r ∨ c = .lockRegained r ∨ c = .signalPresent r ∨
        ∃ bits, c = .frameReceived r bits) ∨
      (∃ i, c = .tQuietExpiry i ∨ c = .watchRetrainRequest i ∨ c = .applyLaneCase i ∨
        ∃ d, c = .tAcquireExpiry i d ∨ c = .tRelockExpiry i d ∨ c = .tTuneExpiry i d ∨ c = .tReplyExpiry i d ∨
          c = .tSettleExpiry i d ∨ ∃ n, c = .scanWindowEnd i d n) ∨
      c = .watchPeriodExpiry ∨ (∃ k, c = .legResetAsserted k) ∨
      (∃ q, c = .hostNack q ∨ c = .readPartEnd q ∨ ∃ b, c = .actionLaneOperation q b)) → ∀ p, marks p) ∧
    (∀ k, c = .legResetReleased k → (s.port (legPort k)).handed = [] → ∀ p, p ≠ legPort k → marks p)

/-- What a host's command through port `p` marks (R182, R183). A write stop that is no action marks at every other port
the mapped groups whose shown content changed, and for its own port STATUS at most, where the part has changed it: the
groups it stored are not marked for it (log 19). An action, refused or not, marks what changed at every port, its own
included, but ACTION at its own port only if the outcome fields as shown have changed. A valid APPLY_PROFILE marks
besides, whether or not bytes change, at M0 every mapped LANE and TUNE group and PART (for PART the model's reading, log
18), at each leg's port every mapped LANE and TUNE group if it changed the view's mapping, and LEG if it changed the
leg's state. Where operations of an earlier action are still out through the port, the first is taken before, as an
ACTION_LANE_OPERATION of its own, with that event's marks (R144, R148; log 10). -/
def Obligations.PortCommandsMarkWhatTheyChange : Prop :=
  (∀ (c : Instr) (s t : State) (p : PortId), s.bitmapLaw → (s.port p).handed = [] → exec c s = .next t →
    let differs := fun (a : State) (q : PortId) (g : ChangeGroup) => decide (groupContent a q g ≠ groupContent t q g);
    let stood := fun (q : PortId) (g : ChangeGroup) => (s.port q).bitmap.getLsbD g.val;
    let marked := fun (q : PortId) (g : ChangeGroup) (b : Bool) =>
      (t.port q).bitmap.getLsbD g.val = (groupMapped t q g && b);
    (((∃ x y z, c = .countsZero p x y z) ∨ (∃ m, c = .alertMaskWrite p m) ∨ (∃ m, c = .bitmapClear p m) ∨
        ((s.port p).phase.isWrite = true ∧ (s.port p).buffer.block ≠ some 0x30 ∧ ∃ m, c = .registerWrite p m)) →
      (∀ q g, q ≠ p → marked q g (stood q g || differs s q g)) ∧
      (∀ g : ChangeGroup, g ≠ 19 → (∀ m, c ≠ .bitmapClear p m) → (s.port p).buffer.block ≠ some 0x32 →
        marked p g (stood p g)) ∧
      ((∀ x y z, c ≠ .countsZero p x y z) → (∀ m, c ≠ .bitmapClear p m) → (s.port p).buffer.block ≠ some 0x31 →
        (s.port p).buffer.block ≠ some 0x32 → marked p 19 (stood p 19 || differs s p 19))) ∧
    (∀ code args, issuedAction c = some (p, code, args) →
      let applies := code = 13 ∧ actionReady s p 13 ∧ s.part = .running ∧ validate s.wiring s.pendingProfile = none;
      let forced := fun (q : PortId) (g : ChangeGroup) => applies ∧
        (q = 0 ∧ (g = 0 ∨ (2 ≤ g.val ∧ g.val < 18)) ∨
          ∃ k, q = legPort k ∧
            ((2 ≤ g.val ∧ g.val < 18 ∧ (s.current.legs.get k).enabled ≠ (t.current.legs.get k).enabled) ∨
              (g = 1 ∧ s.legState.get k ≠ t.legState.get k)));
      ∀ (q : PortId) (g : ChangeGroup), marked q g (stood q g || decide (forced q g) ||
        (differs s q g && (decide (q ≠ p) || differs (s.withRequest p code args) q g))))) ∧
  (∀ (c : Instr) (s : State) (p : PortId) (op : HandedOp) (rest : List HandedOp), (s.port p).handed = op :: rest →
    ((acknowledges s p = true ∧ ((∃ m, c = .alertMaskWrite p m) ∨ (∃ m, c = .bitmapClear p m) ∨
        (∃ addr dir, c = .busStartAddress p addr dir) ∨
        (∃ x y z, c = .countsZero p x y z ∧ ¬ (x = none ∧ y = none ∧ z = none)) ∨
        (∃ code args, issuedAction c = some (p, code, args)))) ∨
      ((s.port p).phase.isWrite = true ∧ (s.port p).buffer.block ≠ none ∧ ∃ m, c = .registerWrite p m)) →
    ∃ u, exec (.actionLaneOperation p op.bit) s = .next u ∧ exec c s = exec c u)

/-- A transmitter forwards only while its lane is in CARRY, both are squelched in OFF, DOWN, WAIT and FAULT, and so is
an S-transmitter that stands on no pairs (R9, R29, R30). What it sends, tuning frames or retimed traffic, goes out in
the transmitter's polarity and is shaped by its current setting: the C-side polarities are the wiring record's, the
S-side polarities those of the switch lane whose pairs the S-segment stands on, and retimed symbols are those the
feeding receiver recovers in its own polarity (R4, R9, R30, R60, R79). R9 names the switch lane and not the moment: that
the S-side polarities are those of the current profile in every state, also between an apply and the lane's own case, is
the model's reading (log 13, DEDUCED, unsafe). That outputs are functions of the state is the model's choice (log 23). A
frame carries the own session number, rx_ready by the search's acceptance, the outstanding request by its codes or kind
NONE, the stored reply or NONE, and the echo of the transmitter's setting and stack depth; fields that a kind does not
use go out at their lowest codes; in DETECT rx_ready is off and request and reply are NONE (R32, R80, R87, R89, R93,
R190, R192). -/
def Obligations.TransmittersFollowTheLaneState : Prop :=
  ∀ (s : State) (i : LaneId) (d : Side),
    let l := s.lane i;
    let h := s.half i d;
    let feed := Side.opposite d;
    let stands := d = .C ∨ l.sPair ≠ none;
    let tx : Side → Polarity := fun e => match e with
      | .C => (s.wiring.cPolarity.get i).tx
      | .S => l.sPair.elim .normal (fun x => (s.current.lanes.get x).tx);
    let rx : Side → Polarity := fun e => match e with
      | .C => (s.wiring.cPolarity.get i).rx
      | .S => l.sPair.elim .normal (fun x => (s.current.lanes.get x).rx);
    let tapCode : Tap → BitVec 2 := fun x => match x with | .pre => 0 | .post1 => 1 | .post2 => 2;
    -- request kind, tap, direction, preset and tag
    let asked : BitVec 3 × BitVec 2 × Bool × BitVec 3 × BitVec 2 := match h.req.outstanding with
      | none => (0, 0, false, 0, 0)
      | some (.step x y, tag) => (1, tapCode x, decide (y = .plus), 0, BitVec.ofNat 2 tag.val)
      | some (.trial x y, tag) => (2, tapCode x, decide (y = .plus), 0, BitVec.ofNat 2 tag.val)
      | some (.keep, tag) => (3, 0, false, 0, BitVec.ofNat 2 tag.val)
      | some (.back, tag) => (4, 0, false, 0, BitVec.ofNat 2 tag.val)
      | some (.preset n, tag) => (5, 0, false, BitVec.ofNat 3 n.val, BitVec.ofNat 2 tag.val);
    let answer : BitVec 3 := match h.resp.outcome with
      | .none => 0 | .applied => 1 | .atLimit => 2 | .stackFull => 3 | .stackEmpty => 4 | .badRequest => 5;
    let x := h.tx.current;
    let sent : Frame :=
      { session := BitVec.ofNat 4 h.seg.own.val
        ready := h.seg.ownReady
        kind := asked.1
        tap := asked.2.1
        dir := asked.2.2.1
        preset := asked.2.2.2.1
        tag := asked.2.2.2.2
        replyTag := h.resp.lastTag.elim 4 fun tag => BitVec.ofNat 3 tag.val
        replyOutcome := h.resp.lastTag.elim 0 fun _ => answer
        echo :=
          { pre := BitVec.ofNat 4 x.pre.natAbs
            main := BitVec.ofInt 6 (48 - x.pre.natAbs - x.post1.natAbs - x.post2.natAbs)
            post1 := BitVec.ofNat 5 x.post1.natAbs
            post2 := BitVec.ofInt 4 x.post2
            depth := BitVec.ofNat 4 h.tx.stack.length } };
    (h.seg.state = .detect → h.detectLaw = true →
      sent.ready = false ∧ sent.kind = 0 ∧ sent.replyTag = 4 ∧ sent.replyOutcome = 0) ∧
    ((l.state = .off ∨ l.state = .down ∨ l.state = .wait ∨ l.state = .fault) → txOutput s i d = .squelched) ∧
    (¬ stands → txOutput s i d = .squelched) ∧
    (stands → (l.state = .train ∨ l.state = .ready) → h.seg.state ≠ .idle →
      txOutput s i d = .frames (throughPolarity (tx d) sent.encode) h.tx.current) ∧
    (stands → l.state = .carry →
      (((s.half i feed).seg.tRelock ≠ none ∨ (feed = .S ∧ l.sPair = none)) → txOutput s i d = .squelched) ∧
      ((s.half i feed).seg.tRelock = none → (feed = .C ∨ l.sPair ≠ none) →
        txOutput s i d = .forward feed (tx d) h.tx.current ∧
        ∀ line : BitVec 2, retimed s i d line =
          some (throughPolarity (tx d) (throughPolarity (rx feed) line), h.tx.current))) ∧
    (l.state ≠ .carry → ∀ line : BitVec 2, retimed s i d line = none)
end

