-- ==== Sys2Proof/Laws/Buffer.lean ====
section
/-! SUPPORT. The holding buffer: every operation keeps its canonical form, and a byte read after a byte placed (R166). -/

namespace Sys2Proof.Machine

theorem HoldingBuffer.empty_wf : HoldingBuffer.empty.wf = true := rfl

theorem insertEntry_ne_nil (off : Nat) (b : Byte) (es : List (Nat × Byte)) : insertEntry off b es ≠ [] := by
  cases es with
  | nil => simp [insertEntry]
  | cons e rest => simp only [insertEntry]; split <;> [skip; split] <;> simp

/-- Placing a byte at an offset below 64 keeps the offsets strictly rising below 64. -/
theorem insertEntry_wf {off : Nat} (b : Byte) {es : List (Nat × Byte)} (ho : off < 64) (h : entriesWf es = true) :
    entriesWf (insertEntry off b es) = true := by
  induction es with
  | nil => simp [insertEntry, entriesWf, ho]
  | cons e rest ih =>
    obtain ⟨o, x⟩ := e
    simp only [insertEntry]
    split
    · next hlt => simp [entriesWf, hlt, h]
    · next hge =>
      split
      · next heq =>
        subst heq
        cases rest with
        | nil => simpa [entriesWf] using h
        | cons e' r => obtain ⟨o', y⟩ := e'; simpa [entriesWf] using h
      · next hne =>
        have hrest : entriesWf rest = true := by
          cases rest with
          | nil => rfl
          | cons e' r => obtain ⟨o', y⟩ := e'; simp [entriesWf] at h; exact h.2
        have ih := ih hrest
        cases rest with
        | nil => simp [insertEntry, entriesWf]; omega
        | cons e' r =>
          obtain ⟨o', y⟩ := e'
          simp [entriesWf] at h
          simp only [insertEntry] at ih ⊢
          split
          · next h1 => simp [h1, entriesWf] at ih ⊢; exact ⟨by omega, ih⟩
          · next h1 =>
            split
            · next h2 => simp [h2, entriesWf] at ih ⊢; exact ⟨by omega, ih⟩
            · next h2 => simp [h1, h2, entriesWf] at ih ⊢; exact ⟨by omega, ih⟩

theorem pointerOffset_lt (p : BitVec 16) : pointerOffset p < 64 := Nat.mod_lt _ (by decide)

/-- A data byte keeps the buffer's canonical form (R166). -/
theorem HoldingBuffer.put_wf {b : HoldingBuffer} (ptr : BitVec 16) (x : Byte) (h : b.wf = true) :
    (b.put ptr x).wf = true := insertEntry_wf x (pointerOffset_lt ptr) h

/-- A byte read after a byte placed: the placed byte at its offset, what stood before elsewhere. -/
theorem lookup_insertEntry (off o : Nat) (b : Byte) (es : List (Nat × Byte)) (h : entriesWf es = true) :
    (insertEntry off b es).lookup o = if o = off then some b else es.lookup o := by
  induction es with
  | nil =>
    by_cases e : o = off
    · simp [insertEntry, e]
    · simp [insertEntry, e, List.lookup, beq_eq_false_iff_ne.mpr e]
  | cons e rest ih =>
    obtain ⟨o', x⟩ := e
    have hrest : entriesWf rest = true := by
      cases rest with
      | nil => rfl
      | cons e' r => obtain ⟨o'', y⟩ := e'; simp [entriesWf] at h; exact h.2
    simp only [insertEntry]
    split
    · by_cases e : o = off
      · simp [e]
      · simp [e, List.lookup, beq_eq_false_iff_ne.mpr e]
    · split
      · next heq =>
        subst heq
        by_cases e : o = off
        · simp [e]
        · simp [e, List.lookup, beq_eq_false_iff_ne.mpr e]
      · next hne =>
        by_cases e : o = o'
        · subst e
          simp [List.lookup]
          intro h'; exact absurd h'.symm hne
        · simp [List.lookup, beq_eq_false_iff_ne.mpr e, ih hrest]

theorem HoldingBuffer.byteAt_put {b : HoldingBuffer} (ptr : BitVec 16) (x : Byte) (o : Nat) (h : b.wf = true) :
    (b.put ptr x).byteAt o = if o = pointerOffset ptr then some x else b.byteAt o :=
  lookup_insertEntry _ _ _ _ h

/-- The pointer's advance keeps the block and moves the offset by 1 modulo 64 (R163). -/
theorem advance_block_offset (p : BitVec 16) :
    pointerBlock (advance p) = pointerBlock p ∧ pointerOffset (advance p) = (pointerOffset p + 1) % 64 := by
  have := p.isLt
  have e : (advance p).toNat = p.toNat / 64 * 64 + (p.toNat % 64 + 1) % 64 := by
    simp only [advance, pointerBlock, pointerOffset, BitVec.toNat_ofNat]
    omega
  simp only [pointerBlock, pointerOffset, e]
  omega

end Sys2Proof.Machine
end

