-- ==== Sys2Proof/Laws/Tab.lean ====
section
/-! SUPPORT. Lemmas of the fixed-length table: reading an entry after each way of writing one. -/

namespace Sys2Proof

theorem Tab.ext_get {n : Nat} {α : Type} {a b : Tab n α} (h : ∀ i, a.get i = b.get i) : a = b := by
  obtain ⟨xs, hx⟩ := a
  obtain ⟨ys, hy⟩ := b
  have : xs = ys := List.ext_getElem (by omega) fun j h1 h2 => h ⟨j, by omega⟩
  subst this
  rfl

@[simp] theorem Tab.get_set_self {n : Nat} {α : Type} (t : Tab n α) (i : Fin n) (x : α) : (t.set i x).get i = x := by
  simp [Tab.get, Tab.set]

theorem Tab.get_set_ne {n : Nat} {α : Type} (t : Tab n α) {i j : Fin n} (x : α) (h : j ≠ i) :
    (t.set i x).get j = t.get j := by
  have : i.val ≠ j.val := fun e => h (Fin.ext e.symm)
  simp [Tab.get, Tab.set, this]

theorem Tab.get_set {n : Nat} {α : Type} (t : Tab n α) (i j : Fin n) (x : α) :
    (t.set i x).get j = if j = i then x else t.get j := by
  split
  · next h => subst h; simp
  · next h => exact t.get_set_ne x h

@[simp] theorem Tab.set_get_self {n : Nat} {α : Type} (t : Tab n α) (i : Fin n) : t.set i (t.get i) = t := by
  apply Tab.ext_get
  intro j
  rw [Tab.get_set]
  split
  · next h => rw [h]
  · rfl

@[simp] theorem Tab.set_set {n : Nat} {α : Type} (t : Tab n α) (i : Fin n) (x y : α) : (t.set i x).set i y = t.set i y := by
  apply Tab.ext_get
  intro j
  rw [Tab.get_set, Tab.get_set, Tab.get_set]
  split <;> rfl

theorem Tab.set_comm {n : Nat} {α : Type} (t : Tab n α) {i j : Fin n} (x y : α) (h : i ≠ j) :
    (t.set i x).set j y = (t.set j y).set i x := by
  apply Tab.ext_get
  intro k
  simp only [Tab.get_set]
  split
  · next h1 => subst h1; rw [if_neg (Ne.symm h)]
  · rfl

@[simp] theorem Tab.get_ofFn {n : Nat} {α : Type} (f : Fin n → α) (i : Fin n) : (Tab.ofFn f).get i = f i := by
  simp [Tab.get, Tab.ofFn]

@[simp] theorem Tab.get_fill {n : Nat} {α : Type} (x : α) (i : Fin n) : (Tab.fill n x).get i = x := by
  simp [Tab.get, Tab.fill]

@[simp] theorem Tab.get_mapIdx {n : Nat} {α β : Type} (t : Tab n α) (f : Fin n → α → β) (i : Fin n) :
    (t.mapIdx f).get i = f i (t.get i) := Tab.get_ofFn _ i

@[simp] theorem Tab.get_modify_self {n : Nat} {α : Type} (t : Tab n α) (i : Fin n) (f : α → α) :
    (t.modify i f).get i = f (t.get i) := Tab.get_set_self t i _

theorem Tab.get_modify_ne {n : Nat} {α : Type} (t : Tab n α) {i j : Fin n} (f : α → α) (h : j ≠ i) :
    (t.modify i f).get j = t.get j := t.get_set_ne _ h

@[simp] theorem Tab.mem_indices {n : Nat} (i : Fin n) : i ∈ Tab.indices n := by
  simp [Tab.indices]

end Sys2Proof
end

