-- ==== Sys2Proof/Laws/State.lean ====
section
/-! SUPPORT. One lemma for each field and each update, so that no later proof unfolds a record update. -/

namespace Sys2Proof.Machine

/-! ## The state: fields an update leaves alone -/
@[simp] theorem State.setLane_pending (s : State) (i : LaneId) (l : Lane) :
    (State.setLane s i l).pending = s.pending := rfl
@[simp] theorem State.setLane_part (s : State) (i : LaneId) (l : Lane) :
    (State.setLane s i l).part = s.part := rfl
@[simp] theorem State.setLane_loadRunning (s : State) (i : LaneId) (l : Lane) :
    (State.setLane s i l).loadRunning = s.loadRunning := rfl
@[simp] theorem State.setLane_faultCause (s : State) (i : LaneId) (l : Lane) :
    (State.setLane s i l).faultCause = s.faultCause := rfl
@[simp] theorem State.setLane_store (s : State) (i : LaneId) (l : Lane) :
    (State.setLane s i l).store = s.store := rfl
@[simp] theorem State.setLane_serial (s : State) (i : LaneId) (l : Lane) :
    (State.setLane s i l).serial = s.serial := rfl
@[simp] theorem State.setLane_lengthCode (s : State) (i : LaneId) (l : Lane) :
    (State.setLane s i l).lengthCode = s.lengthCode := rfl
@[simp] theorem State.setLane_switchLine (s : State) (i : LaneId) (l : Lane) :
    (State.setLane s i l).switchLine = s.switchLine := rfl
@[simp] theorem State.setLane_legLines (s : State) (i : LaneId) (l : Lane) :
    (State.setLane s i l).legLines = s.legLines := rfl
@[simp] theorem State.setLane_wiring (s : State) (i : LaneId) (l : Lane) :
    (State.setLane s i l).wiring = s.wiring := rfl
@[simp] theorem State.setLane_current (s : State) (i : LaneId) (l : Lane) :
    (State.setLane s i l).current = s.current := rfl
@[simp] theorem State.setLane_pendingProfile (s : State) (i : LaneId) (l : Lane) :
    (State.setLane s i l).pendingProfile = s.pendingProfile := rfl
@[simp] theorem State.setLane_applyOutcome (s : State) (i : LaneId) (l : Lane) :
    (State.setLane s i l).applyOutcome = s.applyOutcome := rfl
@[simp] theorem State.setLane_failingLeg (s : State) (i : LaneId) (l : Lane) :
    (State.setLane s i l).failingLeg = s.failingLeg := rfl
@[simp] theorem State.setLane_route (s : State) (i : LaneId) (l : Lane) :
    (State.setLane s i l).route = s.route := rfl
@[simp] theorem State.setLane_inverse (s : State) (i : LaneId) (l : Lane) :
    (State.setLane s i l).inverse = s.inverse := rfl
@[simp] theorem State.setLane_hysteresis (s : State) (i : LaneId) (l : Lane) :
    (State.setLane s i l).hysteresis = s.hysteresis := rfl
@[simp] theorem State.setLane_pWatch (s : State) (i : LaneId) (l : Lane) :
    (State.setLane s i l).pWatch = s.pWatch := rfl
@[simp] theorem State.setLane_dDrop (s : State) (i : LaneId) (l : Lane) :
    (State.setLane s i l).dDrop = s.dDrop := rfl
@[simp] theorem State.setLane_kAlarm (s : State) (i : LaneId) (l : Lane) :
    (State.setLane s i l).kAlarm = s.kAlarm := rfl
@[simp] theorem State.setLane_freeze (s : State) (i : LaneId) (l : Lane) :
    (State.setLane s i l).freeze = s.freeze := rfl
@[simp] theorem State.setLane_watchTimer (s : State) (i : LaneId) (l : Lane) :
    (State.setLane s i l).watchTimer = s.watchTimer := rfl
@[simp] theorem State.setLane_policy (s : State) (i : LaneId) (l : Lane) :
    (State.setLane s i l).policy = s.policy := rfl
@[simp] theorem State.setLane_legState (s : State) (i : LaneId) (l : Lane) :
    (State.setLane s i l).legState = s.legState := rfl
@[simp] theorem State.setLane_legs (s : State) (i : LaneId) (l : Lane) :
    (State.setLane s i l).legs = s.legs := rfl
@[simp] theorem State.setLane_busy (s : State) (i : LaneId) (l : Lane) :
    (State.setLane s i l).busy = s.busy := rfl
@[simp] theorem State.setLane_cRx (s : State) (i : LaneId) (l : Lane) :
    (State.setLane s i l).cRx = s.cRx := rfl
@[simp] theorem State.setLane_sRx (s : State) (i : LaneId) (l : Lane) :
    (State.setLane s i l).sRx = s.sRx := rfl
@[simp] theorem State.setLane_ports (s : State) (i : LaneId) (l : Lane) :
    (State.setLane s i l).ports = s.ports := rfl
@[simp] theorem State.setPort_pending (s : State) (p : PortId) (x : Port) :
    (State.setPort s p x).pending = s.pending := rfl
@[simp] theorem State.setPort_part (s : State) (p : PortId) (x : Port) :
    (State.setPort s p x).part = s.part := rfl
@[simp] theorem State.setPort_loadRunning (s : State) (p : PortId) (x : Port) :
    (State.setPort s p x).loadRunning = s.loadRunning := rfl
@[simp] theorem State.setPort_faultCause (s : State) (p : PortId) (x : Port) :
    (State.setPort s p x).faultCause = s.faultCause := rfl
@[simp] theorem State.setPort_store (s : State) (p : PortId) (x : Port) :
    (State.setPort s p x).store = s.store := rfl
@[simp] theorem State.setPort_serial (s : State) (p : PortId) (x : Port) :
    (State.setPort s p x).serial = s.serial := rfl
@[simp] theorem State.setPort_lengthCode (s : State) (p : PortId) (x : Port) :
    (State.setPort s p x).lengthCode = s.lengthCode := rfl
@[simp] theorem State.setPort_switchLine (s : State) (p : PortId) (x : Port) :
    (State.setPort s p x).switchLine = s.switchLine := rfl
@[simp] theorem State.setPort_legLines (s : State) (p : PortId) (x : Port) :
    (State.setPort s p x).legLines = s.legLines := rfl
@[simp] theorem State.setPort_wiring (s : State) (p : PortId) (x : Port) :
    (State.setPort s p x).wiring = s.wiring := rfl
@[simp] theorem State.setPort_current (s : State) (p : PortId) (x : Port) :
    (State.setPort s p x).current = s.current := rfl
@[simp] theorem State.setPort_pendingProfile (s : State) (p : PortId) (x : Port) :
    (State.setPort s p x).pendingProfile = s.pendingProfile := rfl
@[simp] theorem State.setPort_applyOutcome (s : State) (p : PortId) (x : Port) :
    (State.setPort s p x).applyOutcome = s.applyOutcome := rfl
@[simp] theorem State.setPort_failingLeg (s : State) (p : PortId) (x : Port) :
    (State.setPort s p x).failingLeg = s.failingLeg := rfl
@[simp] theorem State.setPort_route (s : State) (p : PortId) (x : Port) :
    (State.setPort s p x).route = s.route := rfl
@[simp] theorem State.setPort_inverse (s : State) (p : PortId) (x : Port) :
    (State.setPort s p x).inverse = s.inverse := rfl
@[simp] theorem State.setPort_hysteresis (s : State) (p : PortId) (x : Port) :
    (State.setPort s p x).hysteresis = s.hysteresis := rfl
@[simp] theorem State.setPort_pWatch (s : State) (p : PortId) (x : Port) :
    (State.setPort s p x).pWatch = s.pWatch := rfl
@[simp] theorem State.setPort_dDrop (s : State) (p : PortId) (x : Port) :
    (State.setPort s p x).dDrop = s.dDrop := rfl
@[simp] theorem State.setPort_kAlarm (s : State) (p : PortId) (x : Port) :
    (State.setPort s p x).kAlarm = s.kAlarm := rfl
@[simp] theorem State.setPort_freeze (s : State) (p : PortId) (x : Port) :
    (State.setPort s p x).freeze = s.freeze := rfl
@[simp] theorem State.setPort_watchTimer (s : State) (p : PortId) (x : Port) :
    (State.setPort s p x).watchTimer = s.watchTimer := rfl
@[simp] theorem State.setPort_policy (s : State) (p : PortId) (x : Port) :
    (State.setPort s p x).policy = s.policy := rfl
@[simp] theorem State.setPort_legState (s : State) (p : PortId) (x : Port) :
    (State.setPort s p x).legState = s.legState := rfl
@[simp] theorem State.setPort_legs (s : State) (p : PortId) (x : Port) :
    (State.setPort s p x).legs = s.legs := rfl
@[simp] theorem State.setPort_busy (s : State) (p : PortId) (x : Port) :
    (State.setPort s p x).busy = s.busy := rfl
@[simp] theorem State.setPort_lanes (s : State) (p : PortId) (x : Port) :
    (State.setPort s p x).lanes = s.lanes := rfl
@[simp] theorem State.setPort_cRx (s : State) (p : PortId) (x : Port) :
    (State.setPort s p x).cRx = s.cRx := rfl
@[simp] theorem State.setPort_sRx (s : State) (p : PortId) (x : Port) :
    (State.setPort s p x).sRx = s.sRx := rfl
@[simp] theorem State.setAction_pending (s : State) (p : PortId) (f : ActionBlock → ActionBlock) :
    (State.setAction s p f).pending = s.pending := rfl
@[simp] theorem State.setAction_part (s : State) (p : PortId) (f : ActionBlock → ActionBlock) :
    (State.setAction s p f).part = s.part := rfl
@[simp] theorem State.setAction_loadRunning (s : State) (p : PortId) (f : ActionBlock → ActionBlock) :
    (State.setAction s p f).loadRunning = s.loadRunning := rfl
@[simp] theorem State.setAction_faultCause (s : State) (p : PortId) (f : ActionBlock → ActionBlock) :
    (State.setAction s p f).faultCause = s.faultCause := rfl
@[simp] theorem State.setAction_store (s : State) (p : PortId) (f : ActionBlock → ActionBlock) :
    (State.setAction s p f).store = s.store := rfl
@[simp] theorem State.setAction_serial (s : State) (p : PortId) (f : ActionBlock → ActionBlock) :
    (State.setAction s p f).serial = s.serial := rfl
@[simp] theorem State.setAction_lengthCode (s : State) (p : PortId) (f : ActionBlock → ActionBlock) :
    (State.setAction s p f).lengthCode = s.lengthCode := rfl
@[simp] theorem State.setAction_switchLine (s : State) (p : PortId) (f : ActionBlock → ActionBlock) :
    (State.setAction s p f).switchLine = s.switchLine := rfl
@[simp] theorem State.setAction_legLines (s : State) (p : PortId) (f : ActionBlock → ActionBlock) :
    (State.setAction s p f).legLines = s.legLines := rfl
@[simp] theorem State.setAction_wiring (s : State) (p : PortId) (f : ActionBlock → ActionBlock) :
    (State.setAction s p f).wiring = s.wiring := rfl
@[simp] theorem State.setAction_current (s : State) (p : PortId) (f : ActionBlock → ActionBlock) :
    (State.setAction s p f).current = s.current := rfl
@[simp] theorem State.setAction_pendingProfile (s : State) (p : PortId) (f : ActionBlock → ActionBlock) :
    (State.setAction s p f).pendingProfile = s.pendingProfile := rfl
@[simp] theorem State.setAction_applyOutcome (s : State) (p : PortId) (f : ActionBlock → ActionBlock) :
    (State.setAction s p f).applyOutcome = s.applyOutcome := rfl
@[simp] theorem State.setAction_failingLeg (s : State) (p : PortId) (f : ActionBlock → ActionBlock) :
    (State.setAction s p f).failingLeg = s.failingLeg := rfl
@[simp] theorem State.setAction_route (s : State) (p : PortId) (f : ActionBlock → ActionBlock) :
    (State.setAction s p f).route = s.route := rfl
@[simp] theorem State.setAction_inverse (s : State) (p : PortId) (f : ActionBlock → ActionBlock) :
    (State.setAction s p f).inverse = s.inverse := rfl
@[simp] theorem State.setAction_hysteresis (s : State) (p : PortId) (f : ActionBlock → ActionBlock) :
    (State.setAction s p f).hysteresis = s.hysteresis := rfl
@[simp] theorem State.setAction_pWatch (s : State) (p : PortId) (f : ActionBlock → ActionBlock) :
    (State.setAction s p f).pWatch = s.pWatch := rfl
@[simp] theorem State.setAction_dDrop (s : State) (p : PortId) (f : ActionBlock → ActionBlock) :
    (State.setAction s p f).dDrop = s.dDrop := rfl
@[simp] theorem State.setAction_kAlarm (s : State) (p : PortId) (f : ActionBlock → ActionBlock) :
    (State.setAction s p f).kAlarm = s.kAlarm := rfl
@[simp] theorem State.setAction_freeze (s : State) (p : PortId) (f : ActionBlock → ActionBlock) :
    (State.setAction s p f).freeze = s.freeze := rfl
@[simp] theorem State.setAction_watchTimer (s : State) (p : PortId) (f : ActionBlock → ActionBlock) :
    (State.setAction s p f).watchTimer = s.watchTimer := rfl
@[simp] theorem State.setAction_policy (s : State) (p : PortId) (f : ActionBlock → ActionBlock) :
    (State.setAction s p f).policy = s.policy := rfl
@[simp] theorem State.setAction_legState (s : State) (p : PortId) (f : ActionBlock → ActionBlock) :
    (State.setAction s p f).legState = s.legState := rfl
@[simp] theorem State.setAction_legs (s : State) (p : PortId) (f : ActionBlock → ActionBlock) :
    (State.setAction s p f).legs = s.legs := rfl
@[simp] theorem State.setAction_busy (s : State) (p : PortId) (f : ActionBlock → ActionBlock) :
    (State.setAction s p f).busy = s.busy := rfl
@[simp] theorem State.setAction_lanes (s : State) (p : PortId) (f : ActionBlock → ActionBlock) :
    (State.setAction s p f).lanes = s.lanes := rfl
@[simp] theorem State.setAction_cRx (s : State) (p : PortId) (f : ActionBlock → ActionBlock) :
    (State.setAction s p f).cRx = s.cRx := rfl
@[simp] theorem State.setAction_sRx (s : State) (p : PortId) (f : ActionBlock → ActionBlock) :
    (State.setAction s p f).sRx = s.sRx := rfl
@[simp] theorem State.setLeg_pending (s : State) (k : LegId) (c : LegConfig) :
    (State.setLeg s k c).pending = s.pending := rfl
@[simp] theorem State.setLeg_part (s : State) (k : LegId) (c : LegConfig) :
    (State.setLeg s k c).part = s.part := rfl
@[simp] theorem State.setLeg_loadRunning (s : State) (k : LegId) (c : LegConfig) :
    (State.setLeg s k c).loadRunning = s.loadRunning := rfl
@[simp] theorem State.setLeg_faultCause (s : State) (k : LegId) (c : LegConfig) :
    (State.setLeg s k c).faultCause = s.faultCause := rfl
@[simp] theorem State.setLeg_store (s : State) (k : LegId) (c : LegConfig) :
    (State.setLeg s k c).store = s.store := rfl
@[simp] theorem State.setLeg_serial (s : State) (k : LegId) (c : LegConfig) :
    (State.setLeg s k c).serial = s.serial := rfl
@[simp] theorem State.setLeg_lengthCode (s : State) (k : LegId) (c : LegConfig) :
    (State.setLeg s k c).lengthCode = s.lengthCode := rfl
@[simp] theorem State.setLeg_switchLine (s : State) (k : LegId) (c : LegConfig) :
    (State.setLeg s k c).switchLine = s.switchLine := rfl
@[simp] theorem State.setLeg_legLines (s : State) (k : LegId) (c : LegConfig) :
    (State.setLeg s k c).legLines = s.legLines := rfl
@[simp] theorem State.setLeg_wiring (s : State) (k : LegId) (c : LegConfig) :
    (State.setLeg s k c).wiring = s.wiring := rfl
@[simp] theorem State.setLeg_current (s : State) (k : LegId) (c : LegConfig) :
    (State.setLeg s k c).current = s.current := rfl
@[simp] theorem State.setLeg_pendingProfile (s : State) (k : LegId) (c : LegConfig) :
    (State.setLeg s k c).pendingProfile = s.pendingProfile := rfl
@[simp] theorem State.setLeg_applyOutcome (s : State) (k : LegId) (c : LegConfig) :
    (State.setLeg s k c).applyOutcome = s.applyOutcome := rfl
@[simp] theorem State.setLeg_failingLeg (s : State) (k : LegId) (c : LegConfig) :
    (State.setLeg s k c).failingLeg = s.failingLeg := rfl
@[simp] theorem State.setLeg_route (s : State) (k : LegId) (c : LegConfig) :
    (State.setLeg s k c).route = s.route := rfl
@[simp] theorem State.setLeg_inverse (s : State) (k : LegId) (c : LegConfig) :
    (State.setLeg s k c).inverse = s.inverse := rfl
@[simp] theorem State.setLeg_hysteresis (s : State) (k : LegId) (c : LegConfig) :
    (State.setLeg s k c).hysteresis = s.hysteresis := rfl
@[simp] theorem State.setLeg_pWatch (s : State) (k : LegId) (c : LegConfig) :
    (State.setLeg s k c).pWatch = s.pWatch := rfl
@[simp] theorem State.setLeg_dDrop (s : State) (k : LegId) (c : LegConfig) :
    (State.setLeg s k c).dDrop = s.dDrop := rfl
@[simp] theorem State.setLeg_kAlarm (s : State) (k : LegId) (c : LegConfig) :
    (State.setLeg s k c).kAlarm = s.kAlarm := rfl
@[simp] theorem State.setLeg_freeze (s : State) (k : LegId) (c : LegConfig) :
    (State.setLeg s k c).freeze = s.freeze := rfl
@[simp] theorem State.setLeg_watchTimer (s : State) (k : LegId) (c : LegConfig) :
    (State.setLeg s k c).watchTimer = s.watchTimer := rfl
@[simp] theorem State.setLeg_policy (s : State) (k : LegId) (c : LegConfig) :
    (State.setLeg s k c).policy = s.policy := rfl
@[simp] theorem State.setLeg_legState (s : State) (k : LegId) (c : LegConfig) :
    (State.setLeg s k c).legState = s.legState := rfl
@[simp] theorem State.setLeg_busy (s : State) (k : LegId) (c : LegConfig) :
    (State.setLeg s k c).busy = s.busy := rfl
@[simp] theorem State.setLeg_lanes (s : State) (k : LegId) (c : LegConfig) :
    (State.setLeg s k c).lanes = s.lanes := rfl
@[simp] theorem State.setLeg_cRx (s : State) (k : LegId) (c : LegConfig) :
    (State.setLeg s k c).cRx = s.cRx := rfl
@[simp] theorem State.setLeg_sRx (s : State) (k : LegId) (c : LegConfig) :
    (State.setLeg s k c).sRx = s.sRx := rfl
@[simp] theorem State.setLeg_ports (s : State) (k : LegId) (c : LegConfig) :
    (State.setLeg s k c).ports = s.ports := rfl
@[simp] theorem State.mapLeg_pending (s : State) (k : LegId) (f : LaneId → Lane → Lane) :
    (State.mapLeg s k f).pending = s.pending := rfl
@[simp] theorem State.mapLeg_part (s : State) (k : LegId) (f : LaneId → Lane → Lane) :
    (State.mapLeg s k f).part = s.part := rfl
@[simp] theorem State.mapLeg_loadRunning (s : State) (k : LegId) (f : LaneId → Lane → Lane) :
    (State.mapLeg s k f).loadRunning = s.loadRunning := rfl
@[simp] theorem State.mapLeg_faultCause (s : State) (k : LegId) (f : LaneId → Lane → Lane) :
    (State.mapLeg s k f).faultCause = s.faultCause := rfl
@[simp] theorem State.mapLeg_store (s : State) (k : LegId) (f : LaneId → Lane → Lane) :
    (State.mapLeg s k f).store = s.store := rfl
@[simp] theorem State.mapLeg_serial (s : State) (k : LegId) (f : LaneId → Lane → Lane) :
    (State.mapLeg s k f).serial = s.serial := rfl
@[simp] theorem State.mapLeg_lengthCode (s : State) (k : LegId) (f : LaneId → Lane → Lane) :
    (State.mapLeg s k f).lengthCode = s.lengthCode := rfl
@[simp] theorem State.mapLeg_switchLine (s : State) (k : LegId) (f : LaneId → Lane → Lane) :
    (State.mapLeg s k f).switchLine = s.switchLine := rfl
@[simp] theorem State.mapLeg_legLines (s : State) (k : LegId) (f : LaneId → Lane → Lane) :
    (State.mapLeg s k f).legLines = s.legLines := rfl
@[simp] theorem State.mapLeg_wiring (s : State) (k : LegId) (f : LaneId → Lane → Lane) :
    (State.mapLeg s k f).wiring = s.wiring := rfl
@[simp] theorem State.mapLeg_current (s : State) (k : LegId) (f : LaneId → Lane → Lane) :
    (State.mapLeg s k f).current = s.current := rfl
@[simp] theorem State.mapLeg_pendingProfile (s : State) (k : LegId) (f : LaneId → Lane → Lane) :
    (State.mapLeg s k f).pendingProfile = s.pendingProfile := rfl
@[simp] theorem State.mapLeg_applyOutcome (s : State) (k : LegId) (f : LaneId → Lane → Lane) :
    (State.mapLeg s k f).applyOutcome = s.applyOutcome := rfl
@[simp] theorem State.mapLeg_failingLeg (s : State) (k : LegId) (f : LaneId → Lane → Lane) :
    (State.mapLeg s k f).failingLeg = s.failingLeg := rfl
@[simp] theorem State.mapLeg_route (s : State) (k : LegId) (f : LaneId → Lane → Lane) :
    (State.mapLeg s k f).route = s.route := rfl
@[simp] theorem State.mapLeg_inverse (s : State) (k : LegId) (f : LaneId → Lane → Lane) :
    (State.mapLeg s k f).inverse = s.inverse := rfl
@[simp] theorem State.mapLeg_hysteresis (s : State) (k : LegId) (f : LaneId → Lane → Lane) :
    (State.mapLeg s k f).hysteresis = s.hysteresis := rfl
@[simp] theorem State.mapLeg_pWatch (s : State) (k : LegId) (f : LaneId → Lane → Lane) :
    (State.mapLeg s k f).pWatch = s.pWatch := rfl
@[simp] theorem State.mapLeg_dDrop (s : State) (k : LegId) (f : LaneId → Lane → Lane) :
    (State.mapLeg s k f).dDrop = s.dDrop := rfl
@[simp] theorem State.mapLeg_kAlarm (s : State) (k : LegId) (f : LaneId → Lane → Lane) :
    (State.mapLeg s k f).kAlarm = s.kAlarm := rfl
@[simp] theorem State.mapLeg_freeze (s : State) (k : LegId) (f : LaneId → Lane → Lane) :
    (State.mapLeg s k f).freeze = s.freeze := rfl
@[simp] theorem State.mapLeg_watchTimer (s : State) (k : LegId) (f : LaneId → Lane → Lane) :
    (State.mapLeg s k f).watchTimer = s.watchTimer := rfl
@[simp] theorem State.mapLeg_policy (s : State) (k : LegId) (f : LaneId → Lane → Lane) :
    (State.mapLeg s k f).policy = s.policy := rfl
@[simp] theorem State.mapLeg_legState (s : State) (k : LegId) (f : LaneId → Lane → Lane) :
    (State.mapLeg s k f).legState = s.legState := rfl
@[simp] theorem State.mapLeg_legs (s : State) (k : LegId) (f : LaneId → Lane → Lane) :
    (State.mapLeg s k f).legs = s.legs := rfl
@[simp] theorem State.mapLeg_busy (s : State) (k : LegId) (f : LaneId → Lane → Lane) :
    (State.mapLeg s k f).busy = s.busy := rfl
@[simp] theorem State.mapLeg_cRx (s : State) (k : LegId) (f : LaneId → Lane → Lane) :
    (State.mapLeg s k f).cRx = s.cRx := rfl
@[simp] theorem State.mapLeg_sRx (s : State) (k : LegId) (f : LaneId → Lane → Lane) :
    (State.mapLeg s k f).sRx = s.sRx := rfl
@[simp] theorem State.mapLeg_ports (s : State) (k : LegId) (f : LaneId → Lane → Lane) :
    (State.mapLeg s k f).ports = s.ports := rfl
@[simp] theorem State.markFlags_pending (s : State) (p : PortId) (x : BitVec 20) :
    (State.markFlags s p x).pending = s.pending := rfl
@[simp] theorem State.markFlags_part (s : State) (p : PortId) (x : BitVec 20) :
    (State.markFlags s p x).part = s.part := rfl
@[simp] theorem State.markFlags_loadRunning (s : State) (p : PortId) (x : BitVec 20) :
    (State.markFlags s p x).loadRunning = s.loadRunning := rfl
@[simp] theorem State.markFlags_faultCause (s : State) (p : PortId) (x : BitVec 20) :
    (State.markFlags s p x).faultCause = s.faultCause := rfl
@[simp] theorem State.markFlags_store (s : State) (p : PortId) (x : BitVec 20) :
    (State.markFlags s p x).store = s.store := rfl
@[simp] theorem State.markFlags_serial (s : State) (p : PortId) (x : BitVec 20) :
    (State.markFlags s p x).serial = s.serial := rfl
@[simp] theorem State.markFlags_lengthCode (s : State) (p : PortId) (x : BitVec 20) :
    (State.markFlags s p x).lengthCode = s.lengthCode := rfl
@[simp] theorem State.markFlags_switchLine (s : State) (p : PortId) (x : BitVec 20) :
    (State.markFlags s p x).switchLine = s.switchLine := rfl
@[simp] theorem State.markFlags_legLines (s : State) (p : PortId) (x : BitVec 20) :
    (State.markFlags s p x).legLines = s.legLines := rfl
@[simp] theorem State.markFlags_wiring (s : State) (p : PortId) (x : BitVec 20) :
    (State.markFlags s p x).wiring = s.wiring := rfl
@[simp] theorem State.markFlags_current (s : State) (p : PortId) (x : BitVec 20) :
    (State.markFlags s p x).current = s.current := rfl
@[simp] theorem State.markFlags_pendingProfile (s : State) (p : PortId) (x : BitVec 20) :
    (State.markFlags s p x).pendingProfile = s.pendingProfile := rfl
@[simp] theorem State.markFlags_applyOutcome (s : State) (p : PortId) (x : BitVec 20) :
    (State.markFlags s p x).applyOutcome = s.applyOutcome := rfl
@[simp] theorem State.markFlags_failingLeg (s : State) (p : PortId) (x : BitVec 20) :
    (State.markFlags s p x).failingLeg = s.failingLeg := rfl
@[simp] theorem State.markFlags_route (s : State) (p : PortId) (x : BitVec 20) :
    (State.markFlags s p x).route = s.route := rfl
@[simp] theorem State.markFlags_inverse (s : State) (p : PortId) (x : BitVec 20) :
    (State.markFlags s p x).inverse = s.inverse := rfl
@[simp] theorem State.markFlags_hysteresis (s : State) (p : PortId) (x : BitVec 20) :
    (State.markFlags s p x).hysteresis = s.hysteresis := rfl
@[simp] theorem State.markFlags_pWatch (s : State) (p : PortId) (x : BitVec 20) :
    (State.markFlags s p x).pWatch = s.pWatch := rfl
@[simp] theorem State.markFlags_dDrop (s : State) (p : PortId) (x : BitVec 20) :
    (State.markFlags s p x).dDrop = s.dDrop := rfl
@[simp] theorem State.markFlags_kAlarm (s : State) (p : PortId) (x : BitVec 20) :
    (State.markFlags s p x).kAlarm = s.kAlarm := rfl
@[simp] theorem State.markFlags_freeze (s : State) (p : PortId) (x : BitVec 20) :
    (State.markFlags s p x).freeze = s.freeze := rfl
@[simp] theorem State.markFlags_watchTimer (s : State) (p : PortId) (x : BitVec 20) :
    (State.markFlags s p x).watchTimer = s.watchTimer := rfl
@[simp] theorem State.markFlags_policy (s : State) (p : PortId) (x : BitVec 20) :
    (State.markFlags s p x).policy = s.policy := rfl
@[simp] theorem State.markFlags_legState (s : State) (p : PortId) (x : BitVec 20) :
    (State.markFlags s p x).legState = s.legState := rfl
@[simp] theorem State.markFlags_legs (s : State) (p : PortId) (x : BitVec 20) :
    (State.markFlags s p x).legs = s.legs := rfl
@[simp] theorem State.markFlags_busy (s : State) (p : PortId) (x : BitVec 20) :
    (State.markFlags s p x).busy = s.busy := rfl
@[simp] theorem State.markFlags_lanes (s : State) (p : PortId) (x : BitVec 20) :
    (State.markFlags s p x).lanes = s.lanes := rfl
@[simp] theorem State.markFlags_cRx (s : State) (p : PortId) (x : BitVec 20) :
    (State.markFlags s p x).cRx = s.cRx := rfl
@[simp] theorem State.markFlags_sRx (s : State) (p : PortId) (x : BitVec 20) :
    (State.markFlags s p x).sRx = s.sRx := rfl
@[simp] theorem State.setCurrent_pending (s : State) (x : Profile) :
    (State.setCurrent s x).pending = s.pending := rfl
@[simp] theorem State.setCurrent_part (s : State) (x : Profile) :
    (State.setCurrent s x).part = s.part := rfl
@[simp] theorem State.setCurrent_loadRunning (s : State) (x : Profile) :
    (State.setCurrent s x).loadRunning = s.loadRunning := rfl
@[simp] theorem State.setCurrent_faultCause (s : State) (x : Profile) :
    (State.setCurrent s x).faultCause = s.faultCause := rfl
@[simp] theorem State.setCurrent_store (s : State) (x : Profile) :
    (State.setCurrent s x).store = s.store := rfl
@[simp] theorem State.setCurrent_serial (s : State) (x : Profile) :
    (State.setCurrent s x).serial = s.serial := rfl
@[simp] theorem State.setCurrent_lengthCode (s : State) (x : Profile) :
    (State.setCurrent s x).lengthCode = s.lengthCode := rfl
@[simp] theorem State.setCurrent_switchLine (s : State) (x : Profile) :
    (State.setCurrent s x).switchLine = s.switchLine := rfl
@[simp] theorem State.setCurrent_legLines (s : State) (x : Profile) :
    (State.setCurrent s x).legLines = s.legLines := rfl
@[simp] theorem State.setCurrent_wiring (s : State) (x : Profile) :
    (State.setCurrent s x).wiring = s.wiring := rfl
@[simp] theorem State.setCurrent_pendingProfile (s : State) (x : Profile) :
    (State.setCurrent s x).pendingProfile = s.pendingProfile := rfl
@[simp] theorem State.setCurrent_applyOutcome (s : State) (x : Profile) :
    (State.setCurrent s x).applyOutcome = s.applyOutcome := rfl
@[simp] theorem State.setCurrent_failingLeg (s : State) (x : Profile) :
    (State.setCurrent s x).failingLeg = s.failingLeg := rfl
@[simp] theorem State.setCurrent_hysteresis (s : State) (x : Profile) :
    (State.setCurrent s x).hysteresis = s.hysteresis := rfl
@[simp] theorem State.setCurrent_pWatch (s : State) (x : Profile) :
    (State.setCurrent s x).pWatch = s.pWatch := rfl
@[simp] theorem State.setCurrent_dDrop (s : State) (x : Profile) :
    (State.setCurrent s x).dDrop = s.dDrop := rfl
@[simp] theorem State.setCurrent_kAlarm (s : State) (x : Profile) :
    (State.setCurrent s x).kAlarm = s.kAlarm := rfl
@[simp] theorem State.setCurrent_freeze (s : State) (x : Profile) :
    (State.setCurrent s x).freeze = s.freeze := rfl
@[simp] theorem State.setCurrent_watchTimer (s : State) (x : Profile) :
    (State.setCurrent s x).watchTimer = s.watchTimer := rfl
@[simp] theorem State.setCurrent_policy (s : State) (x : Profile) :
    (State.setCurrent s x).policy = s.policy := rfl
@[simp] theorem State.setCurrent_legState (s : State) (x : Profile) :
    (State.setCurrent s x).legState = s.legState := rfl
@[simp] theorem State.setCurrent_legs (s : State) (x : Profile) :
    (State.setCurrent s x).legs = s.legs := rfl
@[simp] theorem State.setCurrent_busy (s : State) (x : Profile) :
    (State.setCurrent s x).busy = s.busy := rfl
@[simp] theorem State.setCurrent_lanes (s : State) (x : Profile) :
    (State.setCurrent s x).lanes = s.lanes := rfl
@[simp] theorem State.setCurrent_cRx (s : State) (x : Profile) :
    (State.setCurrent s x).cRx = s.cRx := rfl
@[simp] theorem State.setCurrent_sRx (s : State) (x : Profile) :
    (State.setCurrent s x).sRx = s.sRx := rfl
@[simp] theorem State.setCurrent_ports (s : State) (x : Profile) :
    (State.setCurrent s x).ports = s.ports := rfl
/-! ## A lane: fields an update leaves alone -/
@[simp] theorem Lane.setHalf_state (l : Lane) (d : Side) (h : Half) : (l.setHalf d h).state = l.state := by
  cases d <;> rfl
@[simp] theorem Lane.setHalf_hold (l : Lane) (d : Side) (h : Half) : (l.setHalf d h).hold = l.hold := by
  cases d <;> rfl
@[simp] theorem Lane.setHalf_fc (l : Lane) (d : Side) (h : Half) : (l.setHalf d h).fc = l.fc := by
  cases d <;> rfl
@[simp] theorem Lane.setHalf_trainings (l : Lane) (d : Side) (h : Half) : (l.setHalf d h).trainings = l.trainings := by
  cases d <;> rfl
@[simp] theorem Lane.setHalf_failures (l : Lane) (d : Side) (h : Half) : (l.setHalf d h).failures = l.failures := by
  cases d <;> rfl
@[simp] theorem Lane.setHalf_drops (l : Lane) (d : Side) (h : Half) : (l.setHalf d h).drops = l.drops := by
  cases d <;> rfl
@[simp] theorem Lane.setHalf_retrains (l : Lane) (d : Side) (h : Half) : (l.setHalf d h).retrains = l.retrains := by
  cases d <;> rfl
@[simp] theorem Lane.setHalf_tQuiet (l : Lane) (d : Side) (h : Half) : (l.setHalf d h).tQuiet = l.tQuiet := by
  cases d <;> rfl
@[simp] theorem Lane.setHalf_sPair (l : Lane) (d : Side) (h : Half) : (l.setHalf d h).sPair = l.sPair := by
  cases d <;> rfl
@[simp] theorem Lane.setHalf_cases (l : Lane) (d : Side) (h : Half) : (l.setHalf d h).cases = l.cases := by
  cases d <;> rfl
@[simp] theorem Lane.setHalf_retrainRequested (l : Lane) (d : Side) (h : Half) : (l.setHalf d h).retrainRequested = l.retrainRequested := by
  cases d <;> rfl
@[simp] theorem Lane.mapHalves_state (l : Lane) (f : Half → Half) : (l.mapHalves f).state = l.state := rfl
@[simp] theorem Lane.mapHalves_hold (l : Lane) (f : Half → Half) : (l.mapHalves f).hold = l.hold := rfl
@[simp] theorem Lane.mapHalves_fc (l : Lane) (f : Half → Half) : (l.mapHalves f).fc = l.fc := rfl
@[simp] theorem Lane.mapHalves_trainings (l : Lane) (f : Half → Half) : (l.mapHalves f).trainings = l.trainings := rfl
@[simp] theorem Lane.mapHalves_failures (l : Lane) (f : Half → Half) : (l.mapHalves f).failures = l.failures := rfl
@[simp] theorem Lane.mapHalves_drops (l : Lane) (f : Half → Half) : (l.mapHalves f).drops = l.drops := rfl
@[simp] theorem Lane.mapHalves_retrains (l : Lane) (f : Half → Half) : (l.mapHalves f).retrains = l.retrains := rfl
@[simp] theorem Lane.mapHalves_tQuiet (l : Lane) (f : Half → Half) : (l.mapHalves f).tQuiet = l.tQuiet := rfl
@[simp] theorem Lane.mapHalves_sPair (l : Lane) (f : Half → Half) : (l.mapHalves f).sPair = l.sPair := rfl
@[simp] theorem Lane.mapHalves_cases (l : Lane) (f : Half → Half) : (l.mapHalves f).cases = l.cases := rfl
@[simp] theorem Lane.mapHalves_retrainRequested (l : Lane) (f : Half → Half) : (l.mapHalves f).retrainRequested = l.retrainRequested := rfl
@[simp] theorem Lane.loadTx_state (l : Lane) (a b : Fin 4) : (l.loadTx a b).state = l.state := rfl
@[simp] theorem Lane.loadTx_hold (l : Lane) (a b : Fin 4) : (l.loadTx a b).hold = l.hold := rfl
@[simp] theorem Lane.loadTx_fc (l : Lane) (a b : Fin 4) : (l.loadTx a b).fc = l.fc := rfl
@[simp] theorem Lane.loadTx_trainings (l : Lane) (a b : Fin 4) : (l.loadTx a b).trainings = l.trainings := rfl
@[simp] theorem Lane.loadTx_failures (l : Lane) (a b : Fin 4) : (l.loadTx a b).failures = l.failures := rfl
@[simp] theorem Lane.loadTx_drops (l : Lane) (a b : Fin 4) : (l.loadTx a b).drops = l.drops := rfl
@[simp] theorem Lane.loadTx_retrains (l : Lane) (a b : Fin 4) : (l.loadTx a b).retrains = l.retrains := rfl
@[simp] theorem Lane.loadTx_tQuiet (l : Lane) (a b : Fin 4) : (l.loadTx a b).tQuiet = l.tQuiet := rfl
@[simp] theorem Lane.loadTx_sPair (l : Lane) (a b : Fin 4) : (l.loadTx a b).sPair = l.sPair := rfl
@[simp] theorem Lane.loadTx_cases (l : Lane) (a b : Fin 4) : (l.loadTx a b).cases = l.cases := rfl
@[simp] theorem Lane.loadTx_retrainRequested (l : Lane) (a b : Fin 4) : (l.loadTx a b).retrainRequested = l.retrainRequested := rfl

/-! ## Reading what was written -/

@[simp] theorem State.lane_setLane_self (s : State) (i : LaneId) (l : Lane) : (s.setLane i l).lane i = l :=
  Tab.get_set_self _ _ _

theorem State.lane_setLane (s : State) (i j : LaneId) (l : Lane) :
    (s.setLane i l).lane j = if j = i then l else s.lane j := Tab.get_set _ _ _ _

theorem State.lane_setLane_ne (s : State) {i j : LaneId} (l : Lane) (h : j ≠ i) : (s.setLane i l).lane j = s.lane j :=
  Tab.get_set_ne _ _ h

@[simp] theorem State.port_setPort_self (s : State) (p : PortId) (x : Port) : (s.setPort p x).port p = x :=
  Tab.get_set_self _ _ _

theorem State.port_setPort (s : State) (p q : PortId) (x : Port) :
    (s.setPort p x).port q = if q = p then x else s.port q := Tab.get_set _ _ _ _

theorem State.port_setPort_ne (s : State) {p q : PortId} (x : Port) (h : q ≠ p) : (s.setPort p x).port q = s.port q :=
  Tab.get_set_ne _ _ h

@[simp] theorem State.port_setLane (s : State) (i : LaneId) (l : Lane) (p : PortId) : (s.setLane i l).port p = s.port p :=
  rfl

@[simp] theorem State.lane_setPort (s : State) (p : PortId) (x : Port) (i : LaneId) : (s.setPort p x).lane i = s.lane i :=
  rfl

@[simp] theorem State.setLane_lane_self (s : State) (i : LaneId) : s.setLane i (s.lane i) = s := by
  simp [State.setLane, State.lane]

@[simp] theorem State.setPort_port_self (s : State) (p : PortId) : s.setPort p (s.port p) = s := by
  simp [State.setPort, State.port]

theorem State.lane_mapLeg (s : State) (k : LegId) (f : LaneId → Lane → Lane) (i : LaneId) :
    (s.mapLeg k f).lane i = if s.legOf i = some k then f i (s.lane i) else s.lane i := by
  simp [State.mapLeg, State.lane]

@[simp] theorem Lane.half_setHalf_self (l : Lane) (d : Side) (h : Half) : (l.setHalf d h).half d = h := by
  cases d <;> rfl

theorem Lane.half_setHalf (l : Lane) (d e : Side) (h : Half) : (l.setHalf d h).half e = if e = d then h else l.half e := by
  cases d <;> cases e <;> rfl

@[simp] theorem Lane.half_mapHalves (l : Lane) (f : Half → Half) (d : Side) : (l.mapHalves f).half d = f (l.half d) := by
  cases d <;> rfl

@[simp] theorem Lane.setHalf_half_self (l : Lane) (d : Side) : l.setHalf d (l.half d) = l := by
  cases d <;> rfl

/-! ## Views of the route and of the configuration do not change with lanes and ports -/

@[simp] theorem State.legOf_setLane (s : State) (i j : LaneId) (l : Lane) : (s.setLane i l).legOf j = s.legOf j := rfl
@[simp] theorem State.legOf_setPort (s : State) (p : PortId) (x : Port) (j : LaneId) :
    (s.setPort p x).legOf j = s.legOf j := rfl
@[simp] theorem State.legOf_mapLeg (s : State) (k : LegId) (f : LaneId → Lane → Lane) (j : LaneId) :
    (s.mapLeg k f).legOf j = s.legOf j := rfl
@[simp] theorem State.legConfig_setLane (s : State) (i j : LaneId) (l : Lane) :
    (s.setLane i l).legConfig j = s.legConfig j := rfl
@[simp] theorem State.legConfig_setPort (s : State) (p : PortId) (x : Port) (j : LaneId) :
    (s.setPort p x).legConfig j = s.legConfig j := rfl

/-! ## The terms of the statements -/

@[simp] theorem State.quiet_lanes (s : State) : s.quiet.lanes = s.lanes := rfl
@[simp] theorem State.quiet_legState (s : State) : s.quiet.legState = s.legState := rfl
@[simp] theorem State.quiet_quiet (s : State) : s.quiet.quiet = s.quiet := by
  simp [State.quiet, Tab.mapIdx]
@[simp] theorem State.quiet_offLanes (s : State) : s.quiet.offLanes = s.offLanes := by
  simp [State.offLanes]

end Sys2Proof.Machine
end

