-- ==== Sys2Proof/Laws/Track.lean ====
section
/-! SUPPORT. The Change Tracker: what tracking an event does to the state, and each flag it leaves (R182, R183). -/

namespace Sys2Proof.Machine

/-- Words of flags, as the table of R191 packs them. -/
theorem packBits_flags (bs : List Bool) (n : Nat) :
    (packBits (bs.map fun b => (1, flagCode b))).testBit n = bs.getD n false := by
  induction bs generalizing n with
  | nil => simp [packBits]
  | cons b bs ih =>
    cases n with
    | zero => cases b <;> simp [packBits, flagCode, Nat.testBit_zero]
    | succ n =>
      have : packBits ((b :: bs).map fun b => (1, flagCode b)) / 2 = packBits (bs.map fun b => (1, flagCode b)) := by
        cases b <;> simp [packBits, flagCode]
        omega
      rw [Nat.testBit_succ, this, ih]
      simp

theorem flagsOf_getLsbD (f : ChangeGroup → Bool) (g : ChangeGroup) : (flagsOf f).getLsbD g.val = f g := by
  have h := packBits_flags ((Tab.indices 20).map f) g.val
  rw [List.map_map] at h
  simp only [flagsOf, BitVec.getLsbD_ofNat, g.isLt, decide_true, Bool.true_and]
  refine h.trans ?_
  have hl : g.val < ((Tab.indices 20).map f).length := by simp [Tab.indices]
  rw [List.getD_eq_getElem?_getD, List.getElem?_eq_getElem hl, Option.getD_some, List.getElem_map]
  simp only [Tab.indices, List.getElem_ofFn, id_eq]

theorem mappedFlags_getLsbD (s : State) (p : PortId) (g : ChangeGroup) :
    (mappedFlags s p).getLsbD g.val = groupMapped s p g := flagsOf_getLsbD _ g

theorem changedFlags_getLsbD (a b : State) (p : PortId) (g : ChangeGroup) :
    (changedFlags a b p).getLsbD g.val = decide (groupContent a p g ≠ groupContent b p g) := flagsOf_getLsbD _ g

/-- Tracking an event changes the change bitmaps and nothing else. -/
theorem track_eq (b : State) (o : Option (PortId × State)) (a : State) :
    track b o a = { a with ports := (track b o a).ports } ∧
      ∀ p, (track b o a).port p = { a.port p with bitmap := ((track b o a).port p).bitmap } := by
  refine ⟨rfl, fun p => ?_⟩
  simp only [State.port, track, Tab.get_mapIdx]

@[simp] theorem track_lane (b : State) (o : Option (PortId × State)) (a : State) (i : LaneId) :
    (track b o a).lane i = a.lane i := rfl

@[simp] theorem track_quiet (b : State) (o : Option (PortId × State)) (a : State) : (track b o a).quiet = a.quiet := by
  have h : ((track b o a).ports.mapIdx fun _ x => { x with bitmap := 0 }) =
      a.ports.mapIdx fun _ x => { x with bitmap := 0 } := by
    apply Tab.ext_get
    intro p
    simp [track]
  simp only [State.quiet, h]
  rfl

@[simp] theorem engineEvent_quiet (s t : State) : (engineEvent s t).quiet = t.quiet := track_quiet _ _ _

@[simp] theorem engineEvent_lane (s t : State) (i : LaneId) : (engineEvent s t).lane i = t.lane i := rfl

/-- A group is mapped by the route, the wiring and the current profile alone, which tracking leaves alone. -/
@[simp] theorem track_groupMapped (b : State) (o : Option (PortId × State)) (a : State) (p : PortId) (g : ChangeGroup) :
    groupMapped (track b o a) p g = groupMapped a p g := rfl

/-- A flag after an event that is no port's own write: mapped, and marked before or changed by the event (R182, R183). -/
theorem engineEvent_flag (s t : State) (p : PortId) (g : ChangeGroup) :
    ((engineEvent s t).port p).bitmap.getLsbD g.val =
      (groupMapped t p g &&
        ((t.port p).bitmap.getLsbD g.val || decide (groupContent s p g ≠ groupContent t p g))) := by
  simp only [engineEvent, State.port, track, Tab.get_mapIdx, BitVec.getLsbD_and, BitVec.getLsbD_or,
    changedFlags_getLsbD, mappedFlags_getLsbD]
  exact Bool.and_comm _ _

/-- A flag after any tracked event marks a group the view maps (R182). -/
theorem track_flag_mapped (b : State) (o : Option (PortId × State)) (a : State) (p : PortId) (g : ChangeGroup)
    (h : ((track b o a).port p).bitmap.getLsbD g.val = true) : groupMapped a p g = true := by
  simp only [State.port, track, Tab.get_mapIdx, BitVec.getLsbD_and, mappedFlags_getLsbD, Bool.and_eq_true] at h
  exact h.2

/-- Every tracked state obeys the law of change tracking (R182). -/
theorem track_bitmapLaw (b : State) (o : Option (PortId × State)) (a : State) : (track b o a).bitmapLaw :=
  fun p g h => track_flag_mapped b o a p g h

/-! ## The marks of a valid apply (R183, "Applies") -/

theorem markFlags_port (s : State) (p q : PortId) (f : BitVec 20) :
    (s.markFlags p f).port q = if q = p then { s.port p with bitmap := (s.port p).bitmap ||| f } else s.port q :=
  State.port_setPort s p q _

@[simp] theorem markFlags_quiet (s : State) (p : PortId) (f : BitVec 20) : (s.markFlags p f).quiet = s.quiet := by
  have h : ((s.markFlags p f).ports.mapIdx fun _ x => { x with bitmap := 0 }) =
      s.ports.mapIdx fun _ x => { x with bitmap := 0 } := by
    apply Tab.ext_get
    intro q
    have := markFlags_port s p q f
    simp only [State.port] at this
    simp only [Tab.get_mapIdx, this]
    split
    · next e => rw [e]
    · rfl
  simp only [State.quiet, h]
  rfl

/-- What an apply forces at a leg's port depends on no change bitmap. -/
@[simp] theorem legApplyFlags_markFlags (b s : State) (p : PortId) (f : BitVec 20) (k : LegId) :
    legApplyFlags b (s.markFlags p f) k = legApplyFlags b s k := rfl

/-- The marks of a valid apply change the change bitmaps alone, and each port's by its own flags. -/
theorem markApply_eq (b s : State) :
    (markApply b s).quiet = s.quiet ∧
      ((markApply b s).port 0).bitmap =
        (s.port 0).bitmap ||| ((laneAndTuneFlags &&& mappedFlags s 0) ||| 1#20) ∧
      ∀ k : LegId, ((markApply b s).port (legPort k)).bitmap = (s.port (legPort k)).bitmap ||| legApplyFlags b s k := by
  have hl : Tab.indices 4 = [0, 1, 2, 3] := by decide
  simp only [markApply, hl, List.foldl]
  simp only [markFlags_quiet, legApplyFlags_markFlags, markFlags_port, legPort]
  refine ⟨trivial, by simp, fun k => ?_⟩
  fin_cases k <;> simp

end Sys2Proof.Machine
end

