-- ==== Sys2Proof/Laws/Lanes.lean ====
section
/-! SUPPORT. The Lane Engine and the Leg Engine: for each shared operation over lanes, once, everything it can do. -/

namespace Sys2Proof.Machine

/-- The second state differs from the first in lanes and leg states at most. -/
def LanesOnly (s t : State) : Prop := t = { s with lanes := t.lanes, legState := t.legState }

theorem LanesOnly.refl (s : State) : LanesOnly s s := rfl

theorem LanesOnly.trans {s t u : State} (h : LanesOnly s t) (h' : LanesOnly t u) : LanesOnly s u := by
  unfold LanesOnly at *
  rw [h', h]

theorem LanesOnly.setLane (s : State) (i : LaneId) (l : Lane) : LanesOnly s (s.setLane i l) := rfl

theorem LanesOnly.mapLeg (s : State) (k : LegId) (f : LaneId → Lane → Lane) : LanesOnly s (s.mapLeg k f) := rfl

theorem LanesOnly.route {s t : State} (h : LanesOnly s t) : t.route = s.route := by rw [h]
theorem LanesOnly.ports {s t : State} (h : LanesOnly s t) : t.ports = s.ports := by rw [h]
theorem LanesOnly.pending {s t : State} (h : LanesOnly s t) : t.pending = s.pending := by rw [h]
theorem LanesOnly.legOf {s t : State} (h : LanesOnly s t) (i : LaneId) : t.legOf i = s.legOf i := by
  rw [State.legOf, h.route, State.legOf]
theorem LanesOnly.legConfig {s t : State} (h : LanesOnly s t) (i : LaneId) : t.legConfig i = s.legConfig i := by
  rw [State.legConfig, h.legOf, State.legConfig, h]

theorem LanesOnly.offLanes {s t : State} (h : LanesOnly s t) : t.offLanes = s.offLanes := by
  rw [h]; rfl

/-! ## The Leg Engine (R55, R56) -/

theorem pullBackPeers_eq (s : State) (k : LegId) (i : LaneId) :
    LanesOnly s (s.pullBackPeers k i) ∧ (s.pullBackPeers k i).legState = s.legState.set k .forming ∧
      ∀ j, (s.pullBackPeers k i).lane j =
        if s.legOf j = some k ∧ j ≠ i ∧ (s.lane j).state = .carry then (s.lane j).pullBack else s.lane j := by
  refine ⟨rfl, rfl, fun j => ?_⟩
  have h : (s.pullBackPeers k i).lane j = (s.mapLeg k fun j l => if j ≠ i ∧ l.state = .carry then l.pullBack else l).lane j :=
    rfl
  rw [h, State.lane_mapLeg]
  split
  · next h1 =>
    simp only [h1, true_and]
  · next h1 => simp only [h1, false_and, if_false]

/-- A lane takes an event that rewrites it: everything it can do (R56). -/
theorem moveLane_eq (s : State) (i : LaneId) (f : Lane → Lane) :
    LanesOnly s (s.moveLane i f) ∧ (s.moveLane i f).lane i = f (s.lane i) ∧
      (∀ j, j ≠ i → (s.moveLane i f).lane j =
        if (s.lane i).state = .carry ∧ (f (s.lane i)).state ≠ .carry ∧ s.legOf i ≠ none ∧ s.legOf j = s.legOf i ∧
          (s.lane j).state = .carry then (s.lane j).pullBack else s.lane j) ∧
      (s.moveLane i f).legState =
        if (s.lane i).state = .carry ∧ (f (s.lane i)).state ≠ .carry then
          match s.legOf i with
          | some k => s.legState.set k .forming
          | none => s.legState
        else s.legState := by
  unfold State.moveLane
  by_cases hc : (s.lane i).state = .carry ∧ (f (s.lane i)).state ≠ .carry
  · simp only [hc, if_true, ne_eq, not_false_eq_true, and_self, true_and]
    cases hk : s.legOf i with
    | none => exact ⟨rfl, State.lane_setLane_self _ _ _, fun j hj => by simp [State.lane_setLane_ne _ _ hj], rfl⟩
    | some k =>
      obtain ⟨h1, h2, h3⟩ := pullBackPeers_eq (s.setLane i (f (s.lane i))) k i
      refine ⟨(LanesOnly.setLane s i _).trans h1, ?_, fun j hj => ?_, h2⟩
      · rw [h3]
        simp
      · rw [h3]
        simp [State.lane_setLane_ne _ _ hj, hj]
  · rw [if_neg hc, if_neg hc]
    refine ⟨rfl, State.lane_setLane_self _ _ _, fun j hj => ?_, rfl⟩
    rw [State.lane_setLane_ne _ _ hj, if_neg]
    rintro ⟨a, b, -⟩
    exact hc ⟨a, b⟩

/-- A lane in TRAIN with both segments DONE goes to READY, or with its whole leg to CARRY; any other is left alone (R43,
R55). -/
theorem readyCheck_eq (s : State) (i : LaneId) :
    (s.readyCheck i = s ∧
      ¬ ((s.lane i).state = .train ∧ (s.lane i).s.seg.state = .done ∧ (s.lane i).c.seg.state = .done)) ∨
    ((s.lane i).state = .train ∧ (s.lane i).s.seg.state = .done ∧ (s.lane i).c.seg.state = .done ∧
      ((s.readyCheck i = s.setLane i { s.lane i with state := .ready } ∧
        ∀ k, s.legOf i = some k → ∃ j, j ≠ i ∧ s.legOf j = some k ∧ (s.lane j).state ≠ .ready) ∨
      ∃ k, s.legOf i = some k ∧ (∀ j, j ≠ i → s.legOf j = some k → (s.lane j).state = .ready) ∧
        LanesOnly s (s.readyCheck i) ∧ (s.readyCheck i).legState = s.legState.set k .live ∧
        (s.readyCheck i).lane i = { s.lane i with state := .ready }.enterCarry ∧
        (∀ j, j ≠ i → s.legOf j = some k → (s.readyCheck i).lane j = (s.lane j).enterCarry) ∧
        (∀ j, s.legOf j ≠ some k → (s.readyCheck i).lane j = s.lane j))) := by
  unfold State.readyCheck
  by_cases h : (s.lane i).state = .train ∧ (s.lane i).s.seg.state = .done ∧ (s.lane i).c.seg.state = .done
  · right
    refine ⟨h.1, h.2.1, h.2.2, ?_⟩
    simp only [h, and_self, if_true, State.legOf_setLane]
    cases hk : s.legOf i with
    | none => exact .inl ⟨rfl, fun k hk' => by simp at hk'⟩
    | some k =>
      simp only
      split
      · next hall =>
        right
        rw [List.all_eq_true] at hall
        have hready : ∀ j, j ≠ i → s.legOf j = some k → (s.lane j).state = .ready := by
          intro j hj hjk
          have hm : j ∈ (s.setLane i { s.lane i with state := .ready }).legLanes k := by
            simp [State.legLanes, hjk]
          have := hall j hm
          simpa [State.lane_setLane_ne _ _ hj] using this
        refine ⟨k, rfl, hready, rfl, rfl, ?_, fun j hj hjk => ?_, fun j hjk => ?_⟩
        · refine (State.lane_mapLeg _ _ _ _).trans ?_
          simp [hk]
        · refine (State.lane_mapLeg _ _ _ _).trans ?_
          simp [hjk, State.lane_setLane_ne _ _ hj]
        · have hj : j ≠ i := fun e => hjk (e ▸ hk)
          refine (State.lane_mapLeg _ _ _ _).trans ?_
          simp [hjk, State.lane_setLane_ne _ _ hj]
      · next hall =>
        left
        refine ⟨rfl, fun k' hk' => ?_⟩
        have hkk : k = k' := by simpa using hk'
        subst hkk
        by_contra hno
        apply hall
        rw [List.all_eq_true]
        intro j hj
        have hjk : s.legOf j = some k := of_decide_eq_true (List.mem_filter.mp hj).2
        by_cases e : j = i
        · subst e
          simp
        · rw [State.lane_setLane_ne _ _ e]
          by_contra hne
          exact hno ⟨j, e, hjk, by simpa using hne⟩
  · left
    rw [if_neg h]
    exact ⟨rfl, h⟩

theorem readyCheck_lanesOnly (s : State) (i : LaneId) : LanesOnly s (s.readyCheck i) := by
  rcases readyCheck_eq s i with ⟨h, -⟩ | ⟨-, -, -, ⟨h, -⟩ | ⟨k, -, -, h, -⟩⟩
  · rw [h]; exact LanesOnly.refl s
  · rw [h]; exact LanesOnly.setLane s i _
  · exact h

/-! ## Failures and drops (R44, R48) -/

theorem failSegment_eq (s : State) (i : LaneId) (d : Side) (r : FailReason) :
    s.failSegment i d r =
      if ((s.lane i).state = .train ∨ (s.lane i).state = .ready) ∧ ((s.lane i).half d).seg.state ≠ .idle then
        s.setLane i ((s.lane i).fail d r) else s := rfl

theorem failSegment_lanesOnly (s : State) (i : LaneId) (d : Side) (r : FailReason) :
    LanesOnly s (s.failSegment i d r) := by
  rw [failSegment_eq]
  split
  · exact LanesOnly.setLane s i _
  · exact LanesOnly.refl s

/-- A drop is the lane's fresh training with one more drop, and the Leg Engine's response (R48, R56). -/
theorem drop_eq (s : State) (i : LaneId) :
    s.drop i =
      s.moveLane i fun l => { l.trainFresh (s.legConfig i) with drops := satInc counterMax l.drops } := rfl

theorem drop_lanesOnly (s : State) (i : LaneId) : LanesOnly s (s.drop i) := (moveLane_eq s i _).1

/-- What an event on one side leaves is taken by its lane, in one of three ways: a failure, a failure that finds the lane
in no state to fail, or no failure (R37, R43, R44, R47, R139). -/
theorem applyOut_eq (s : State) (i : LaneId) (d : Side) (o : Out) :
    let l := { (s.lane i).setHalf d o.half with
      retrainRequested := (s.lane i).retrainRequested || o.retrain }
    (∃ r, o.fail = some r ∧ (l.state = .train ∨ l.state = .ready) ∧ o.half.seg.state ≠ .idle ∧
      s.applyOut i d o = s.setLane i (l.fail d r)) ∨
    (∃ r, o.fail = some r ∧ ¬ ((l.state = .train ∨ l.state = .ready) ∧ o.half.seg.state ≠ .idle) ∧
      s.applyOut i d o = s.setLane i l) ∨
    (o.fail = none ∧ s.applyOut i d o = (s.setLane i (l.afterRestart d)).readyCheck i) := by
  intro l
  have hl : { (s.lane i).setHalf d o.half with
      retrainRequested := ((s.lane i).setHalf d o.half).retrainRequested || o.retrain } = l := by
    simp [l]
  have hd : l.half d = o.half := by
    have : l.half d = ((s.lane i).setHalf d o.half).half d := by cases d <;> rfl
    rw [this, Lane.half_setHalf_self]
  unfold State.applyOut
  simp only [hl]
  cases hf : o.fail with
  | some r =>
    simp only [failSegment_eq, State.lane_setLane_self, hd]
    by_cases h : (l.state = .train ∨ l.state = .ready) ∧ o.half.seg.state ≠ .idle
    · refine .inl ⟨r, rfl, h.1, h.2, ?_⟩
      rw [if_pos h]
      simp [State.setLane]
    · refine .inr (.inl ⟨r, rfl, h, ?_⟩)
      rw [if_neg h]
  | none =>
    refine .inr (.inr ⟨rfl, ?_⟩)
    simp [State.setLane, State.lane]

theorem applyOut_lanesOnly (s : State) (i : LaneId) (d : Side) (o : Out) : LanesOnly s (s.applyOut i d o) := by
  rcases applyOut_eq s i d o with ⟨r, -, -, -, h⟩ | ⟨r, -, -, h⟩ | ⟨-, h⟩
  · rw [h]; exact LanesOnly.setLane s i _
  · rw [h]; exact LanesOnly.setLane s i _
  · rw [h]; exact (LanesOnly.setLane s i _).trans (readyCheck_lanesOnly _ i)

/-- The watch's requests touch lanes only (R133). -/
theorem watchLane_lanesOnly (s : State) (i : LaneId) : LanesOnly s (s.watchLane i) := by
  have h : ∀ (s : State) (d : Side), LanesOnly s (s.watchReceiver i d) := by
    intro s d
    unfold State.watchReceiver
    split
    · exact applyOut_lanesOnly s i d _
    · exact LanesOnly.refl s
  exact (h s .S).trans (h _ .C)

/-- Operations that touch lanes only, one after another, touch lanes only. -/
theorem LanesOnly.foldl {α : Type} (f : State → α → State) (h : ∀ s a, LanesOnly s (f s a)) (xs : List α) (s : State) :
    LanesOnly s (xs.foldl f s) := by
  induction xs generalizing s with
  | nil => exact LanesOnly.refl s
  | cons x xs ih => exact (h s x).trans (ih _)

/-- What a lane does with its operation of an action touches lanes only (R148). -/
theorem laneOperation_lanesOnly (s : State) (p : PortId) (a : Action) (args : ActionArgs) (i : LaneId) :
    LanesOnly s (laneOperation s p a args i).1 := by
  have hset : ∀ v op, LanesOnly s (settingLane s p i v op).1 := by
    intro v op
    unfold settingLane
    split
    · exact .refl s
    · exact .setLane s i _
  cases a <;> simp only [laneOperation]
  case retrain =>
    unfold retrainLane
    split
    · exact .refl s
    · exact .refl s
    · dsimp only; exact (moveLane_eq s i _).1
  case hold =>
    unfold holdLane
    split
    · exact .refl s
    · dsimp only; exact (moveLane_eq s i _).1
  case release =>
    unfold releaseLane
    split
    · exact .refl s
    · dsimp only; exact (moveLane_eq s i _).1
  case measure =>
    unfold measureLane
    split
    · exact .refl s
    · exact .refl s
    · split
      · exact .refl s
      · exact .setLane s i _
  case clearCounters =>
    unfold clearLane
    split
    · exact .refl s
    · exact .setLane s i _
  all_goals first
    | exact hset _ _
    | exact LanesOnly.refl s

/-- A handed operation touches lanes only (R148). -/
theorem handedOperation_lanesOnly (s : State) (p : PortId) (a : Action) (args : ActionArgs) (i : LaneId) :
    LanesOnly s (handedOperation s p a args i).1 := by
  unfold handedOperation
  split
  · split
    · exact .refl s
    · exact .setLane s i _
  · exact laneOperation_lanesOnly s p a args i

end Sys2Proof.Machine
end

