-- ==== Sys2Proof/Laws/Load.lean ====
section
/-! SUPPORT. The image load: what the Image Loader finds, and everything the completion of a load can do (R186, R187). -/

namespace Sys2Proof.Machine

/-- A check that does not match, whatever the wiring record (R186). -/
theorem imageCause_check {img : FactoryImage} (h : imageCheck (imageBytes img) ≠ img.check) : imageCause img = .check := by
  unfold imageCause
  rw [if_pos h]

/-- A check that matches and an invalid wiring record (R186). -/
theorem imageCause_wiring {img : FactoryImage} (h : imageCheck (imageBytes img) = img.check)
    (hw : wiringValid img.wiring = false) : imageCause img = .wiring := by
  unfold imageCause
  rw [if_neg (not_not.mpr h), if_pos hw]

/-- A good image (R186). -/
theorem imageCause_none {img : FactoryImage} (h : imageCheck (imageBytes img) = img.check)
    (hw : wiringValid img.wiring = true) : imageCause img = .none := by
  unfold imageCause
  rw [if_neg (not_not.mpr h), if_neg (by simp [hw])]

/-- IMAGE_LOAD_COMPLETE while a load runs: the store holds the image found, and the load ends by what the Image Loader finds
in it (R187). -/
theorem execImageLoadComplete_running {s : State} (found : Option FactoryImage) (hp : s.part = .loading)
    (hl : s.loadRunning = true) :
    exec (.imageLoadComplete found) s = .next (State.completeLoad { s with store := found.getD s.store }) := by
  show execImageLoadComplete found s = _
  unfold execImageLoadComplete
  rw [if_pos ⟨hp, hl⟩]

/-- IMAGE_LOAD_COMPLETE while no load runs has no effect (log 21). -/
theorem execImageLoadComplete_idle {s : State} (found : Option FactoryImage)
    (h : ¬ (s.part = .loading ∧ s.loadRunning = true)) : exec (.imageLoadComplete found) s = .next s := by
  show execImageLoadComplete found s = _
  unfold execImageLoadComplete
  rw [if_neg h]

/-- The end of a load, by the fault cause (R187, R188). -/
theorem completeLoad_eq (s : State) :
    s.completeLoad = if imageCause s.store = .none then s.loadGood s.store
      else s.loadBad s.store (imageCause s.store) := by
  unfold State.completeLoad
  split <;> simp_all

/-- No image replaces the store as a load ends. -/
@[simp] theorem completeLoad_store (s : State) : s.completeLoad.store = s.store := by
  rw [completeLoad_eq]
  split
  · unfold State.loadGood State.installProfile
    dsimp only
    split <;> rfl
  · rfl

end Sys2Proof.Machine
end

