-- ==== Sys2Proof/Laws/Pack.lean ====
section
/-! SUPPORT. Packed fields (R189, R191): where a field of a packed number stands, and which bit of which byte shows it. -/

namespace Sys2Proof.Machine

/-- The width of packed fields. -/
def packWidth (fields : List (Nat × Nat)) : Nat := (fields.map Prod.fst).sum

@[simp] theorem packWidth_nil : packWidth [] = 0 := rfl

@[simp] theorem packWidth_cons (w v : Nat) (rest : List (Nat × Nat)) : packWidth ((w, v) :: rest) = w + packWidth rest := by
  simp [packWidth]

/-- One field and the fields above it. -/
theorem packBits_cons_testBit (w v : Nat) (rest : List (Nat × Nat)) (n : Nat) :
    (packBits ((w, v) :: rest)).testBit n = if n < w then v.testBit n else (packBits rest).testBit (n - w) := by
  have h : packBits ((w, v) :: rest) = 2 ^ w * packBits rest + v % 2 ^ w := Nat.add_comm _ _
  rw [h, Nat.testBit_two_pow_mul_add _ (Nat.mod_lt _ (Nat.two_pow_pos w))]
  split
  · next hn => simp [Nat.testBit_mod_two_pow, hn]
  · rfl

/-- A field stands above the fields before it, from its low bit to its high bit (R191). -/
theorem packBits_testBit (before rest : List (Nat × Nat)) {w v m : Nat} (hm : m < w) :
    (packBits (before ++ (w, v) :: rest)).testBit (packWidth before + m) = v.testBit m := by
  induction before with
  | nil => simp [packBits_cons_testBit, hm]
  | cons f before ih =>
    obtain ⟨w', v'⟩ := f
    rw [List.cons_append, packBits_cons_testBit, packWidth_cons, if_neg (by omega)]
    rw [show w' + packWidth before + m - w' = packWidth before + m by omega]
    exact ih

theorem bytesOf_length (k n : Nat) : (bytesOf k n).length = k := by
  induction k generalizing n with
  | zero => rfl
  | succ k ih => simp [bytesOf, ih]

/-- The bytes of a packed number, by place. -/
theorem bytesOf_getD (k n j : Nat) (hj : j < k) : (bytesOf k n).getD j 0 = byte (n / 256 ^ j) := by
  induction k generalizing n j with
  | zero => omega
  | succ k ih =>
    cases j with
    | zero => simp [bytesOf]
    | succ j =>
      have h := ih (n / 256) j (by omega)
      simpa [bytesOf, Nat.div_div_eq_div_mul, Nat.pow_succ, Nat.mul_comm] using h

/-- Bit `n` of a section is bit `n` mod 8 of byte `n` / 8 (R191). -/
theorem bytesOf_getLsbD (k x n : Nat) (hn : n / 8 < k) :
    ((bytesOf k x).getD (n / 8) 0).getLsbD (n % 8) = x.testBit n := by
  have h8 : n % 8 < 8 := Nat.mod_lt _ (by omega)
  rw [bytesOf_getD k x _ hn, byte, BitVec.getLsbD_ofNat, show (256 : Nat) = 2 ^ 8 from rfl, ← Nat.pow_mul,
    Nat.testBit_div_two_pow]
  simp only [h8, decide_true, Bool.true_and]
  congr 1
  omega

end Sys2Proof.Machine
end

