-- ==== Sys2Proof/Laws/Ports.lean ====
section
/-! SUPPORT. The ports: what an action, a write stop and the ends of parts can touch, and what a write of the request fields
comes to (chapters 7 to 9). -/

namespace Sys2Proof.Machine

/-! ## Operations of an action -/

/-- The second state differs from the first in lanes, leg states, and port `p`'s action block and handed operations at
most. -/
def ActionOnly (p : PortId) (s t : State) : Prop :=
  t = { s with
    lanes := t.lanes
    legState := t.legState
    ports := s.ports.set p { s.port p with action := (t.port p).action, handed := (t.port p).handed } }

theorem ActionOnly.refl (p : PortId) (s : State) : ActionOnly p s s := by
  have : s.ports.set p (s.port p) = s.ports := Tab.set_get_self _ _
  unfold ActionOnly
  rw [show ({ s.port p with action := (s.port p).action, handed := (s.port p).handed } : Port) = s.port p from rfl, this]

theorem ActionOnly.trans {p : PortId} {a b c : State} (h : ActionOnly p a b) (h' : ActionOnly p b c) :
    ActionOnly p a c := by
  have hb : b.ports = a.ports.set p { a.port p with action := (b.port p).action, handed := (b.port p).handed } := by
    rw [h]; simp [State.port]
  have hp : b.port p = { a.port p with action := (b.port p).action, handed := (b.port p).handed } := by
    conv_lhs => rw [State.port, hb, Tab.get_set_self]
  have hc : c.ports = b.ports.set p { b.port p with action := (c.port p).action, handed := (c.port p).handed } := by
    conv_lhs => rw [h']
  have hports : c.ports = a.ports.set p { a.port p with action := (c.port p).action, handed := (c.port p).handed } := by
    rw [hc, hb, Tab.set_set, hp]
  unfold ActionOnly at *
  rw [← hports, h', h]

theorem LanesOnly.actionOnly {s t : State} (p : PortId) (h : LanesOnly s t) : ActionOnly p s t := by
  have hp : t.port p = s.port p := by rw [State.port, h.ports, State.port]
  have : s.ports.set p (s.port p) = s.ports := Tab.set_get_self _ _
  unfold ActionOnly
  rw [hp, show ({ s.port p with action := (s.port p).action, handed := (s.port p).handed } : Port) = s.port p from rfl,
    this]
  exact h

theorem ActionOnly.setPort (p : PortId) (s : State) (a : ActionBlock) (ops : List HandedOp) :
    ActionOnly p s (s.setPort p { s.port p with action := a, handed := ops }) := by
  simp only [ActionOnly, State.setPort, State.port, Tab.get_set_self]

theorem setAction_actionOnly (p : PortId) (s : State) (f : ActionBlock → ActionBlock) :
    ActionOnly p s (s.setAction p f) := ActionOnly.setPort p s _ _

theorem closeAction_actionOnly (p : PortId) (s : State) : ActionOnly p s (s.closeAction p) := by
  unfold State.closeAction
  split
  · exact setAction_actionOnly p s _
  · exact .refl p s

theorem setOutcome_actionOnly (p : PortId) (s : State) (b : Fin 8) (o : LaneOutcome) :
    ActionOnly p s (s.setOutcome p b o) := setAction_actionOnly p s _

/-- One named lane of an action being taken (R146, R148, R153). -/
theorem takeLane_actionOnly (p : PortId) (a : Action) (later : BitVec 8) (s : State) (b : Fin 8) :
    ActionOnly p s (takeLane p a later s b) := by
  unfold takeLane
  dsimp only
  split
  · exact .refl p s
  · split
    · exact setOutcome_actionOnly p s b _
    · split
      · split
        · exact setOutcome_actionOnly p s b _
        · exact ActionOnly.setPort p s _ _
      · exact ((laneOperation_lanesOnly s p a _ _).actionOnly p).trans (setOutcome_actionOnly p _ b _)

theorem ActionOnly.foldl {α : Type} {p : PortId} (f : State → α → State) (h : ∀ s a, ActionOnly p s (f s a)) (xs : List α)
    (s : State) : ActionOnly p s (xs.foldl f s) := by
  induction xs generalizing s with
  | nil => exact .refl p s
  | cons x xs ih => exact (h s x).trans (ih _)

/-- An action that uses the mask touches lanes, leg states and the port's action block (R147, R148). -/
theorem runAction_actionOnly (s : State) (p : PortId) (a : Action) (later : BitVec 8) (h : a.usesMask = true) :
    ActionOnly p s (s.runAction p a later) := by
  unfold State.runAction
  dsimp only
  rw [if_pos h]
  exact ((setAction_actionOnly p s _).trans (.foldl _ (takeLane_actionOnly p a later) _ _)).trans
    (closeAction_actionOnly p _)

/-- An operation taken later (R148, R159). -/
theorem takeHanded_actionOnly (s : State) (p : PortId) (op : HandedOp) : ActionOnly p s (s.takeHanded p op) := by
  unfold State.takeHanded
  dsimp only
  split
  · exact (((ActionOnly.setPort p s _ _).trans ((handedOperation_lanesOnly _ p _ _ _).actionOnly p)).trans
      (setOutcome_actionOnly p _ _ _)).trans (closeAction_actionOnly p _)
  · exact ActionOnly.setPort p s _ _

/-- An operation that is taken is handed out no more; the others wait on (R148). -/
theorem takeHanded_handed (s : State) (p : PortId) (op : HandedOp) :
    ((s.takeHanded p op).port p).handed = (s.port p).handed.filter fun o => decide (o ≠ op) := by
  have hset : ∀ (t : State) (f : ActionBlock → ActionBlock), ((t.setAction p f).port p).handed = (t.port p).handed := by
    intro t f
    simp [State.setAction, State.setPort, State.port]
  have hclose : ∀ t : State, ((t.closeAction p).port p).handed = (t.port p).handed := by
    intro t
    unfold State.closeAction
    split
    · exact hset t _
    · rfl
  unfold State.takeHanded
  dsimp only
  split
  · rw [hclose]
    unfold State.setOutcome
    rw [hset, State.port, (handedOperation_lanesOnly _ p _ _ _).ports]
    simp [State.setPort]
  · simp [State.setPort, State.port]

theorem refuseAction_actionOnly (s : State) (p : PortId) (o : Overall) (l : LaneOutcome) :
    ActionOnly p s (s.refuseAction p o l) := setAction_actionOnly p s _

/-- The ports but `p`, and every field that holds configuration, are left alone by an action that uses the mask. -/
theorem ActionOnly.keeps {p : PortId} {s t : State} (h : ActionOnly p s t) :
    (∀ q, q ≠ p → t.port q = s.port q) ∧ t.route = s.route ∧ t.inverse = s.inverse ∧ t.wiring = s.wiring ∧
      t.current = s.current ∧ t.pendingProfile = s.pendingProfile ∧ t.policy = s.policy ∧ t.busy = s.busy ∧
      t.legs = s.legs ∧ t.part = s.part ∧ t.pending = s.pending := by
  unfold ActionOnly at h
  refine ⟨fun q hq => ?_, ?_⟩
  · rw [State.port, h]
    exact Tab.get_set_ne _ _ hq
  · rw [h]
    exact ⟨rfl, rfl, rfl, rfl, rfl, rfl, rfl, rfl, rfl, rfl⟩

/-- Where no operation is out, nothing is settled (R144). -/
theorem settleHanded_nil {s : State} {p : PortId} (h : (s.port p).handed = []) : settleHanded s p = s := by
  unfold settleHanded
  rw [h]
  rfl

theorem engineEvent_handed (s t : State) (p : PortId) : ((engineEvent s t).port p).handed = (t.port p).handed := by
  show ((track s none t).port p).handed = (t.port p).handed
  rw [(track_eq s none t).2 p]

/-- Settling more operations than are out changes nothing more. -/
theorem settleUpTo_enough (p : PortId) (n m : Nat) (s : State) (hn : (s.port p).handed.length ≤ n)
    (hm : (s.port p).handed.length ≤ m) : settleUpTo n s p = settleUpTo m s p := by
  induction n generalizing m s with
  | zero =>
    have h : (s.port p).handed = [] := List.length_eq_zero_iff.mp (by omega)
    cases m with
    | zero => rfl
    | succ m => simp [settleUpTo, h]
  | succ n ih =>
    cases m with
    | zero =>
      have h : (s.port p).handed = [] := List.length_eq_zero_iff.mp (by omega)
      simp [settleUpTo, h]
    | succ m =>
      simp only [settleUpTo]
      split
      · rfl
      · next op rest h =>
        have hl : ((engineEvent s (s.takeHanded p op)).port p).handed.length ≤ rest.length := by
          rw [engineEvent_handed, takeHanded_handed, h]
          simp [List.length_filter_le]
        rw [h, List.length_cons] at hn hm
        exact ih m _ (by omega) (by omega)

/-- Operations out are settled by the first one's own event, and then the rest (R144, R148). -/
theorem settleHanded_cons {s : State} {p : PortId} {op : HandedOp} {rest : List HandedOp}
    (h : (s.port p).handed = op :: rest) :
    settleHanded s p = settleHanded (engineEvent s (s.takeHanded p op)) p := by
  have hl : ((engineEvent s (s.takeHanded p op)).port p).handed.length ≤ rest.length := by
    rw [engineEvent_handed, takeHanded_handed, h]
    simp [List.length_filter_le]
  unfold settleHanded
  rw [h, List.length_cons]
  simp only [settleUpTo, h]
  exact settleUpTo_enough p _ _ _ hl (Nat.le_refl _)

/-! ## Storing groups -/

/-- The second state differs from the first in configuration fields and port `p` at most. -/
def StoreOnly (p : PortId) (s t : State) : Prop :=
  t.lanes = s.lanes ∧ t.legState = s.legState ∧ t.route = s.route ∧ t.inverse = s.inverse ∧ t.current = s.current ∧
    t.wiring = s.wiring ∧ t.part = s.part ∧ t.pending = s.pending ∧ ∀ q, q ≠ p → t.port q = s.port q

theorem StoreOnly.refl (p : PortId) (s : State) : StoreOnly p s s :=
  ⟨rfl, rfl, rfl, rfl, rfl, rfl, rfl, rfl, fun _ _ => rfl⟩

theorem StoreOnly.trans {p : PortId} {a b c : State} (h : StoreOnly p a b) (h' : StoreOnly p b c) : StoreOnly p a c := by
  obtain ⟨a1, a2, a3, a4, a5, a6, a7, a8, a9⟩ := h
  obtain ⟨b1, b2, b3, b4, b5, b6, b7, b8, b9⟩ := h'
  exact ⟨b1.trans a1, b2.trans a2, b3.trans a3, b4.trans a4, b5.trans a5, b6.trans a6, b7.trans a7, b8.trans a8,
    fun q hq => (b9 q hq).trans (a9 q hq)⟩

theorem StoreOnly.setPort (p : PortId) (s : State) (x : Port) : StoreOnly p s (s.setPort p x) :=
  ⟨rfl, rfl, rfl, rfl, rfl, rfl, rfl, rfl, fun _ hq => Tab.get_set_ne _ _ hq⟩

theorem StoreOnly.setLeg (p : PortId) (s : State) (k : LegId) (c : LegConfig) : StoreOnly p s (s.setLeg k c) :=
  ⟨rfl, rfl, rfl, rfl, rfl, rfl, rfl, rfl, fun _ _ => rfl⟩

theorem StoreOnly.config (p : PortId) (s : State) (h w d k : Nat) (pp : Profile) (t : PolicyTable) :
    StoreOnly p s { s with
      hysteresis := h, pWatch := w, dDrop := d, kAlarm := k, pendingProfile := pp, policy := t } :=
  ⟨rfl, rfl, rfl, rfl, rfl, rfl, rfl, rfl, fun _ _ => rfl⟩

theorem storeLegGroup_storeOnly (p : PortId) (k : LegId) (g : FieldGroup) (b : HoldingBuffer) (s : State) :
    StoreOnly p s (storeLegGroup k g b s) := by
  unfold storeLegGroup
  dsimp only
  split <;> first
    | exact .setLeg p s k _
    | exact .refl p s

/-- A stored group touches configuration and the writing port at most (R167). -/
theorem storeGroup_storeOnly (p : PortId) (r : Record) (b : HoldingBuffer) (s : State) (g : FieldGroup) :
    StoreOnly p s (storeGroup p r b s g) := by
  unfold storeGroup
  split
  case h_12 =>
    split
    · exact storeLegGroup_storeOnly p _ _ b s
    · exact .refl p s
  case h_8 => exact .setPort p s _
  case h_9 => exact .setPort p s _
  case h_10 => exact .setPort p s _
  case h_11 => exact .setPort p s _
  all_goals exact .config p s _ _ _ _ _ _

/-- The groups of a write, stored together. -/
theorem storeGroups_storeOnly (s : State) (p : PortId) (r : Record) (b : HoldingBuffer) :
    StoreOnly p s (storeGroups s p r b) := by
  unfold storeGroups
  generalize (writtenGroups s p r b).filter _ = gs
  induction gs generalizing s with
  | nil => exact .refl p s
  | cons g gs ih => exact (storeGroup_storeOnly p r b s g).trans (ih _)

/-! ## A write of the request fields -/

theorem resolve_action (s : State) (p : PortId) : resolve s p 0x30 = some .action := rfl
theorem resolve_status (s : State) (p : PortId) : resolve s p 0x31 = some .status := rfl
theorem resolve_change (s : State) (p : PortId) : resolve s p 0x32 = some .change := rfl

/-- The six request bytes lie in the REQUEST group (12.5). -/
theorem requestEntries_groups (s : State) (p : PortId) (code : Byte) (args : ActionArgs) :
    (requestEntries code args).map (fun e => groupAt s p .action e.1) =
      [.request, .request, .request, .request, .request, .request] := rfl

theorem requestEntries_written (s : State) (p : PortId) (code : Byte) (args : ActionArgs) :
    writtenGroups s p .action ⟨some 0x30, requestEntries code args⟩ = [.request] := by
  unfold writtenGroups
  rw [requestEntries_groups]
  rfl

/-- The request bytes say the arguments they were made from (12.5, R189). -/
theorem requestEntries_args (code : Byte) (args old : ActionArgs) :
    writtenArgs old ⟨some 0x30, requestEntries code args⟩ = args := by
  obtain ⟨side, mask, tap, direction, preset⟩ := args
  have h1 : ∀ v : ViewSide, (if flagOf (byte (sideCode v)) then ViewSide.far else .near) = v := by
    intro v; cases v <;> rfl
  have h2 : ∀ v : Fin 4, Fin.ofNat 4 (lowBits 2 (byte v.val)) = v := by decide
  have h3 : ∀ v : Direction, (if flagOf (byte (directionCode v)) then Direction.plus else .minus) = v := by
    intro v; cases v <;> rfl
  have h4 : ∀ v : Fin 8, Fin.ofNat 8 (lowBits 3 (byte v.val)) = v := by decide
  show ActionArgs.mk (if flagOf (byte (sideCode side)) then .far else .near) mask
    (Fin.ofNat 4 (lowBits 2 (byte tap.val))) (if flagOf (byte (directionCode direction)) then .plus else .minus)
    (Fin.ofNat 8 (lowBits 3 (byte preset.val))) = _
  rw [h1, h2, h3, h4]

/-- An action block after a write of its request fields: the outcomes stay (R144). -/
def ActionBlock.requested (x : ActionBlock) (code : Byte) (args : ActionArgs) : ActionBlock :=
  { x with code := code, args := args }

/-- The storing of the six request bytes where the Access Policy Unit allows it (R144, R167). -/
theorem requestEntries_stored {s : State} {p : PortId} (code : Byte) (args : ActionArgs)
    (h : judgeWrite s p .action .request = .allow) :
    storeGroups s p .action ⟨some 0x30, requestEntries code args⟩ = s.setAction p fun x => x.requested code args := by
  have ha : groupAnswer s p .action ⟨some 0x30, requestEntries code args⟩ .request = .allow := by
    unfold groupAnswer
    rw [h]
    rfl
  unfold storeGroups
  rw [requestEntries_written]
  simp only [List.filter, ha, decide_true, List.foldl]
  simp only [storeGroup, requestEntries_args]
  rfl

/-- The one group of such a write is taken (R180). -/
theorem requestEntries_tally {s : State} {p : PortId} (code : Byte) (args : ActionArgs)
    (h : judgeWrite s p .action .request = .allow) :
    tallyGroups s p .action ⟨some 0x30, requestEntries code args⟩ = ⟨1, 0, 0, none⟩ := by
  have ha : groupAnswer s p .action ⟨some 0x30, requestEntries code args⟩ .request = .allow := by
    unfold groupAnswer
    rw [h]
    rfl
  have hg : ∀ e ∈ requestEntries code args, groupAt s p .action e.1 = .request := by
    intro e he
    have := List.mem_map_of_mem (f := fun e => groupAt s p .action e.1) he
    rw [requestEntries_groups] at this
    simpa using this
  have hf : (requestEntries code args).find? (fun e =>
      decide (groupAnswer s p .action ⟨some 0x30, requestEntries code args⟩ (groupAt s p .action e.1) ≠ .allow)) = none := by
    rw [List.find?_eq_none]
    intro e he
    simp [hg e he, ha]
  unfold tallyGroups
  dsimp only
  rw [requestEntries_written, hf]
  simp [ha]

/-- A write stop that issues an action, where the port acknowledges, no operation is out and the Access Policy Unit allows the
request fields: the fields are stored, the action is taken, and the port status counts both (R144, R167, R180). -/
theorem issueCode_eq {s : State} {p : PortId} (code : Byte) (args : ActionArgs) (later : BitVec 8)
    (hack : acknowledges s p = true) (hout : (s.port p).handed = []) (h : judgeWrite s p .action .request = .allow) :
    issueCode s p code args later =
      (let mid := s.setAction p fun x => x.requested code args
      track s (some (p, mid)) ((mid.takeAction p later).1.setStatus p fun st =>
        st.afterWrite 0x30 ((⟨1, 0, 0, none⟩ : Tally).withAction (mid.takeAction p later).2))) := by
  have hc : writesCode s p .action ⟨some 0x30, requestEntries code args⟩ = true := by
    have ha : groupAnswer s p .action ⟨some 0x30, requestEntries code args⟩ .request = .allow := by
      unfold groupAnswer
      rw [h]
      rfl
    unfold writesCode
    rw [ha]
    rfl
  unfold issueCode hostWrite
  rw [if_pos ⟨hack, by simp [requestEntries]⟩]
  unfold writeStop
  rw [settleHanded_nil hout]
  unfold writeEffect
  dsimp only
  rw [resolve_action]
  simp only [hc, if_true, requestEntries_stored code args h, requestEntries_tally code args h]

/-- The whole-action tests read the policy, the busy mask and the arguments, so the storing of the request fields does not
change what they say (R145, R179). -/
theorem actionTest_setAction (s : State) (p : PortId) (f : ActionBlock → ActionBlock) (code : Nat) (args : ActionArgs) :
    actionTest (s.setAction p f) p code args = actionTest s p code args := rfl

/-- An action of the fourteen that passes every whole-action test (R145, R147, R180). -/
theorem issueAction_eq {s : State} {p : PortId} (a : Action) (args : ActionArgs) (later : BitVec 8)
    (hr : actionReady s p a.code) (hargs : argumentsOk a args = true) :
    issueAction s p a args later =
      (let mid := s.setAction p fun x => x.requested (byte a.code) args
      track s (some (p, mid)) ((mid.runAction p a later).setStatus p fun st => st.afterWrite 0x30 ⟨2, 0, 0, none⟩)) := by
  obtain ⟨hack, hout, hw, hj⟩ := hr
  have hcode : actionOfCode (byte a.code).toNat = some a := by cases a <;> rfl
  have hnat : (byte a.code).toNat = a.code := by cases a <;> rfl
  have htest : actionTest s p (byte a.code).toNat args = .passed a := by
    unfold actionTest
    rw [hcode]
    simp only [hnat, hj, hargs, if_true]
  unfold issueAction
  rw [issueCode_eq (byte a.code) args later hack hout hw]
  have hx : ((s.setAction p fun x => x.requested (byte a.code) args).port p).action.code = byte a.code ∧
      ((s.setAction p fun x => x.requested (byte a.code) args).port p).action.args = args := by
    simp [State.setAction, State.setPort, State.port, ActionBlock.requested]
  have ht : (s.setAction p fun x => x.requested (byte a.code) args).takeAction p later =
      ((s.setAction p fun x => x.requested (byte a.code) args).runAction p a later, .passed a) := by
    unfold State.takeAction
    dsimp only
    rw [hx.1, hx.2, actionTest_setAction, htest]
  simp only [ht, Tally.withAction]

end Sys2Proof.Machine
end

