-- ==== Sys2Proof/Laws/Setting.lean ====
section
/-! SUPPORT. The Transmit Setting Unit: every operation keeps the law of the setting and the law of the stack (R61, R64). -/

namespace Sys2Proof.Machine

theorem presetSetting_lawful (p : Fin 4) : (presetSetting p).lawful = true := by
  revert p; decide

theorem TxUnit.load_lawful (p : Fin 4) : (TxUnit.load p).lawful = true := by
  revert p; decide

theorem TxUnit.lawful_iff (u : TxUnit) :
    u.lawful = true ↔ u.current.lawful = true ∧ (∀ x ∈ u.stack, x.lawful = true) ∧ u.stack.length ≤ 8 := by
  simp only [TxUnit.lawful, Bool.and_eq_true, List.all_eq_true, and_assoc]
  exact and_congr_right fun _ => and_congr_right fun _ => decide_eq_true_iff

/-- A possible step of a lawful setting gives a lawful setting (R63). -/
theorem Setting.moved_lawful {x : Setting} {t : Tap} {d : Direction} (h : x.lawful = true) (hc : x.canStep t d = true) :
    (x.moved t d).lawful = true := by
  cases t <;> cases d <;>
    simp [Setting.lawful, Setting.canStep, Setting.moved, Setting.tapInRange, Setting.main, Setting.outer, directionDelta] at * <;> omega

theorem TxUnit.step_lawful {u : TxUnit} (t : Tap) (d : Direction) (h : u.lawful = true) : (u.step t d).1.lawful = true := by
  unfold TxUnit.step
  split
  · next hc =>
    rw [TxUnit.lawful_iff] at *
    exact ⟨Setting.moved_lawful h.1 hc, h.2⟩
  · exact h

theorem TxUnit.trial_lawful {u : TxUnit} (t : Tap) (d : Direction) (h : u.lawful = true) : (u.trial t d).1.lawful = true := by
  unfold TxUnit.trial
  split
  · exact h
  · next hl =>
    split
    · next hc =>
      rw [TxUnit.lawful_iff] at *
      refine ⟨Setting.moved_lawful h.1 hc, ?_, ?_⟩
      · simpa using ⟨h.1, h.2.1⟩
      · simp [stackLimit] at hl ⊢; omega
    · exact h

theorem TxUnit.keep_lawful {u : TxUnit} (h : u.lawful = true) : u.keep.1.lawful = true := by
  obtain ⟨c, st⟩ := u
  cases st with
  | nil => exact h
  | cons x rest =>
    rw [TxUnit.lawful_iff] at *
    exact ⟨h.1, fun y hy => h.2.1 y (List.mem_cons_of_mem _ hy), by have := h.2.2; simp [TxUnit.keep] at *; omega⟩

theorem TxUnit.back_lawful {u : TxUnit} (h : u.lawful = true) : u.back.1.lawful = true := by
  obtain ⟨c, st⟩ := u
  cases st with
  | nil => exact h
  | cons x rest =>
    rw [TxUnit.lawful_iff] at *
    exact ⟨h.2.1 x (List.mem_cons_self ..), fun y hy => h.2.1 y (List.mem_cons_of_mem _ hy),
      by have := h.2.2; simp [TxUnit.back] at *; omega⟩

theorem TxUnit.preset_lawful (u : TxUnit) (p : Fin 4) : (u.preset p).1.lawful = true := TxUnit.load_lawful p

theorem TxUnit.save_lawful {u : TxUnit} (h : u.lawful = true) : u.save.1.lawful = true := by
  unfold TxUnit.save
  split
  · exact h
  · next hl =>
    rw [TxUnit.lawful_iff] at *
    refine ⟨h.1, by simpa using ⟨h.1, h.2.1⟩, ?_⟩
    simp [stackLimit] at hl ⊢; omega

/-- A request of the partner keeps the laws (R61, R64, R89). -/
theorem TxUnit.serve_lawful {u : TxUnit} (r : Request) (h : u.lawful = true) : (u.serve r).1.lawful = true := by
  cases r with
  | step t d => exact u.step_lawful t d h
  | trial t d => exact u.trial_lawful t d h
  | keep => exact u.keep_lawful h
  | back => exact u.back_lawful h
  | preset p => exact u.preset_lawful p

/-- A step of an action keeps the laws. -/
theorem stepOp_lawful {u : TxUnit} (args : ActionArgs) (h : u.lawful = true) : (stepOp args u).1.lawful = true := by
  unfold stepOp
  split
  · exact u.step_lawful _ _ h
  · exact h

/-- A preset of an action keeps the laws. -/
theorem presetOp_lawful {u : TxUnit} (args : ActionArgs) (h : u.lawful = true) : (presetOp args u).1.lawful = true := by
  unfold presetOp
  split
  · exact u.preset_lawful _
  · exact h

end Sys2Proof.Machine
end

