-- ==== Sys2Proof/Laws/Side.lean ====
section
/-! SUPPORT. One side of a lane: for each shared operation, once, which of the side's state it can touch (chapters 4 to 6). -/

namespace Sys2Proof.Machine

/-! ## The search -/

/-- The second side differs from the first in the Requester, the search and the flags of an acceptance at most. -/
def SearchOnly (h h' : Half) : Prop :=
  h' = { h with
    seg := { h.seg with ownReady := h'.seg.ownReady, marginal := h'.seg.marginal }
    req := h'.req
    search := h'.search }

theorem SearchOnly.refl (h : Half) : SearchOnly h h := rfl

theorem SearchOnly.trans {a b c : Half} (h : SearchOnly a b) (h' : SearchOnly b c) : SearchOnly a c := by
  unfold SearchOnly at *
  rw [h', h]

theorem SearchOnly.search (h : Half) (q : Search) : SearchOnly h { h with search := q } := rfl

theorem SearchOnly.requester (h : Half) (q : Requester) : SearchOnly h { h with req := q } := rfl

/-- A request handed over touches the Requester only (R93, R94). -/
theorem hand_searchOnly (h : Half) (r : Request) : SearchOnly h (h.hand r) := by
  unfold Half.hand
  split <;> rfl

theorem handTrial_searchOnly (h : Half) : SearchOnly h h.handTrial :=
  (SearchOnly.search h _).trans (hand_searchOnly _ _)

theorem startTap_searchOnly (h : Half) (t : Tap) : SearchOnly h (h.startTap t) :=
  (SearchOnly.search h _).trans (handTrial_searchOnly _)

theorem close_searchOnly (h : Half) (p : Phase) (r : Request) : SearchOnly h (h.close p r) :=
  (SearchOnly.search h _).trans (hand_searchOnly _ _)

theorem startSearch_searchOnly (ctx : Ctx) (h : Half) : SearchOnly h (h.startSearch ctx) :=
  (SearchOnly.search h _).trans (hand_searchOnly _ _)

theorem accept_searchOnly (h : Half) (m : Bool) : SearchOnly h (h.accept m) := rfl

theorem acceptance_searchOnly (ctx : Ctx) (h : Half) : SearchOnly h (h.acceptance ctx).half := by
  unfold Half.acceptance
  dsimp only
  split
  · split
    · exact accept_searchOnly h _
    · split
      · exact accept_searchOnly h _
      · exact .refl h
  · split
    · exact accept_searchOnly h _
    · split
      · exact accept_searchOnly h _
      · exact .refl h

theorem endPass_searchOnly (ctx : Ctx) (h : Half) : SearchOnly h (h.endPass ctx).half := by
  unfold Half.endPass
  split
  · exact (SearchOnly.search h _).trans (startTap_searchOnly _ _)
  · exact acceptance_searchOnly ctx h

theorem endDirection_searchOnly (ctx : Ctx) (h : Half) : SearchOnly h (h.endDirection ctx).half := by
  unfold Half.endDirection
  split
  · exact (SearchOnly.search h _).trans (handTrial_searchOnly _)
  · split
    · exact startTap_searchOnly h _
    · exact startTap_searchOnly h _
    · exact endPass_searchOnly ctx h

/-- What the search does with an answer (R116, R120, R122, R123). -/
theorem answered_searchOnly (ctx : Ctx) (h : Half) (o : ReplyOutcome) : SearchOnly h (h.answered ctx o).half := by
  unfold Half.answered
  split <;> (try split) <;> first
    | exact SearchOnly.refl h
    | exact endDirection_searchOnly ctx h
    | exact SearchOnly.search h _
    | exact (SearchOnly.search h _).trans (handTrial_searchOnly _)

theorem countUnordered_searchOnly (h : Half) (next : Half → Half) (hn : ∀ x, SearchOnly x (next x)) :
    SearchOnly h (h.countUnordered next).half := by
  unfold Half.countUnordered
  dsimp only
  split
  · exact .search h _
  · exact (SearchOnly.search h _).trans (hn _)

/-- What the search does with a reading (R117, R121, R124). -/
theorem searchReading_searchOnly (ctx : Ctx) (h : Half) (r : Fom) : SearchOnly h (h.searchReading ctx r).half := by
  unfold Half.searchReading
  split
  · split
    · exact (SearchOnly.search h _).trans (startTap_searchOnly _ _)
    · exact countUnordered_searchOnly h _ fun x => .search x _
  · dsimp only
    split
    · exact (SearchOnly.search h _).trans (close_searchOnly _ _ _)
    · exact (SearchOnly.search h _).trans (close_searchOnly _ _ _)
    · exact (SearchOnly.search h _).trans (close_searchOnly _ _ _)
    · exact (SearchOnly.search h _).trans (countUnordered_searchOnly _ _ fun x => close_searchOnly x _ _)
  · exact .refl h

/-- A search asks for no retrain of the lane. -/
theorem searchReading_retrain (ctx : Ctx) (h : Half) (r : Fom) : (h.searchReading ctx r).retrain = false := by
  unfold Half.searchReading Half.countUnordered
  split
  · split
    · rfl
    · dsimp only; split <;> rfl
  · dsimp only
    split
    · rfl
    · rfl
    · rfl
    · split <;> rfl
  · rfl

/-! ## The scanner and the watch -/

/-- The second side differs from the first in the Requester, the search, the flags of an acceptance, the scanner, the watch
record and the watch alarms at most. -/
def ScanOnly (h h' : Half) : Prop :=
  h' = { h with
    seg := { h.seg with ownReady := h'.seg.ownReady, marginal := h'.seg.marginal }
    req := h'.req
    search := h'.search
    scan := h'.scan
    watch := h'.watch
    watchAlarms := h'.watchAlarms }

theorem ScanOnly.refl (h : Half) : ScanOnly h h := rfl

theorem ScanOnly.trans {a b c : Half} (h : ScanOnly a b) (h' : ScanOnly b c) : ScanOnly a c := by
  unfold ScanOnly at *
  rw [h', h]

theorem SearchOnly.scanOnly {h h' : Half} (e : SearchOnly h h') : ScanOnly h h' := by
  unfold SearchOnly at e
  unfold ScanOnly
  rw [e]

theorem ScanOnly.scanner (h : Half) (x : Scanner) : ScanOnly h { h with scan := x } := rfl

theorem record_scanOnly (h : Half) (r : Reading) : ScanOnly h (h.record r) := .scanner h _

/-- What the watch does with a reading (R135 to R138). -/
theorem watchReading_scanOnly (ctx : Ctx) (h : Half) (r : Fom) : ScanOnly h (h.watchReading ctx r).half := by
  unfold Half.watchReading
  split <;> rfl

/-- The watch fails no segment. -/
theorem watchReading_fail (ctx : Ctx) (h : Half) (r : Fom) : (h.watchReading ctx r).fail = none := by
  unfold Half.watchReading
  split <;> rfl

theorem handReading_scanOnly (ctx : Ctx) (h : Half) (o : Origin) (r : Fom) :
    ScanOnly h (h.handReading ctx o r).half := by
  cases o
  · exact (searchReading_searchOnly ctx h r).scanOnly
  · exact watchReading_scanOnly ctx h r
  · exact .refl h

theorem startScan_scanOnly (ctx : Ctx) (h : Half) (o : Origin) : ScanOnly h (h.startScan ctx o).half := by
  unfold Half.startScan
  split
  · exact .scanner h _
  · exact (record_scanOnly h _).trans (handReading_scanOnly ctx _ o _)

theorem startWaiting_scanOnly (ctx : Ctx) (h : Half) : ScanOnly h (h.startWaiting ctx).half := by
  unfold Half.startWaiting
  split
  · dsimp only
    split
    · exact (ScanOnly.scanner h _).trans (startScan_scanOnly ctx _ _)
    · exact .scanner h _
  · exact .refl h

theorem andThen_scanOnly {h : Half} {o : Out} {f : Half → Out} (ho : ScanOnly h o.half)
    (hf : ∀ x, ScanOnly x (f x).half) : ScanOnly h (o.andThen f).half := by
  unfold Out.andThen
  split
  · exact ho
  · exact ho.trans (hf _)

theorem endScan_scanOnly (ctx : Ctx) (h : Half) (o : Origin) (r : Reading) : ScanOnly h (h.endScan ctx o r).half :=
  andThen_scanOnly ((record_scanOnly h r).trans (handReading_scanOnly ctx _ o _)) (startWaiting_scanOnly ctx)

/-- A loss of lock at the scanner (R108). -/
theorem scanLosesLock_scanOnly (ctx : Ctx) (h : Half) : ScanOnly h (h.scanLosesLock ctx).half := by
  unfold Half.scanLosesLock
  split
  · exact endScan_scanOnly ctx h _ _
  · exact .refl h

theorem requestSearchScan_scanOnly (ctx : Ctx) (h : Half) : ScanOnly h (h.requestSearchScan ctx).half := by
  unfold Half.requestSearchScan
  split
  · exact .scanner h _
  · exact startScan_scanOnly ctx h _

theorem requestWatchScan_scanOnly (ctx : Ctx) (h : Half) : ScanOnly h (h.requestWatchScan ctx).half := by
  unfold Half.requestWatchScan
  split
  · exact .refl h
  · exact startScan_scanOnly ctx h _

theorem endEdge_scanOnly (ctx : Ctx) (h : Half) (sc : Scan) (v : Nat) : ScanOnly h (h.endEdge ctx sc v).half := by
  unfold Half.endEdge
  dsimp only
  split
  · exact .scanner h _
  · exact endScan_scanOnly ctx h _ _

/-- The end of a window (R105 to R107). -/
theorem windowEnd_scanOnly (ctx : Ctx) (h : Half) (n : Nat) : ScanOnly h (h.windowEnd ctx n).half := by
  unfold Half.windowEnd
  split
  · exact .refl h
  · split
    · exact endEdge_scanOnly ctx h _ _
    · split
      · exact .scanner h _
      · exact endEdge_scanOnly ctx h _ _

/-- What no scan touches: the segment's state and sessions, the transmitter, the Responder, the frame check errors. -/
theorem ScanOnly.keeps {h h' : Half} (e : ScanOnly h h') :
    h'.tx = h.tx ∧ h'.resp = h.resp ∧ h'.frameErrors = h.frameErrors ∧ h'.seg.state = h.seg.state ∧
      h'.seg.own = h.seg.own ∧ h'.seg.partner = h.seg.partner ∧ h'.seg.reason = h.seg.reason ∧
      h'.seg.finalFom = h.seg.finalFom ∧ h'.seg.synchronised = h.seg.synchronised ∧
      h'.seg.tAcquire = h.seg.tAcquire ∧ h'.seg.tRelock = h.seg.tRelock ∧ h'.seg.tTune = h.seg.tTune := by
  unfold ScanOnly at e
  rw [e]
  exact ⟨rfl, rfl, rfl, rfl, rfl, rfl, rfl, rfl, rfl, rfl, rfl, rfl⟩

/-! ## A good frame -/

/-- The second side differs from the first in the segment, the transmitter, the Responder, the Requester and the search at
most. -/
def ExchangeOnly (h h' : Half) : Prop :=
  h' = { h with seg := h'.seg, tx := h'.tx, resp := h'.resp, req := h'.req, search := h'.search }

theorem ExchangeOnly.refl (h : Half) : ExchangeOnly h h := rfl

theorem ExchangeOnly.trans {a b c : Half} (h : ExchangeOnly a b) (h' : ExchangeOnly b c) : ExchangeOnly a c := by
  unfold ExchangeOnly at *
  rw [h', h]

theorem SearchOnly.exchangeOnly {h h' : Half} (e : SearchOnly h h') : ExchangeOnly h h' := by
  unfold SearchOnly at e
  unfold ExchangeOnly
  rw [e]

theorem ExchangeOnly.of_parts (h : Half) (a : SegControl) (u : TxUnit) (b : Responder) (c : Requester) (q : Search) :
    ExchangeOnly h { h with seg := a, tx := u, resp := b, req := c, search := q } := rfl

theorem takeSession_exchangeOnly (ctx : Ctx) (h : Half) (f : Frame) : ExchangeOnly h (h.takeSession ctx f) := by
  unfold Half.takeSession
  split
  · exact .refl h
  · exact (ExchangeOnly.of_parts h _ h.tx h.resp h.req h.search).trans (startSearch_searchOnly ctx _).exchangeOnly
  · split
    · exact .refl h
    · rfl
  · split
    · exact .refl h
    · exact (ExchangeOnly.of_parts h _ h.tx _ _ h.search).trans (startSearch_searchOnly ctx _).exchangeOnly

theorem takeSync_exchangeOnly (h : Half) (f : Frame) : ExchangeOnly h (h.takeSync f) := by
  unfold Half.takeSync
  split
  · unfold Half.synchronise
    dsimp only
    split <;> rfl
  · exact .refl h

theorem takeReply_exchangeOnly (ctx : Ctx) (h : Half) (f : Frame) : ExchangeOnly h (h.takeReply ctx f).half := by
  unfold Half.takeReply
  split
  · exact ((SearchOnly.requester h _).trans (answered_searchOnly ctx _ _)).exchangeOnly
  · exact .refl h

theorem takeRequest_exchangeOnly (h : Half) (f : Frame) : ExchangeOnly h (h.takeRequest f) := by
  unfold Half.takeRequest
  split
  · exact .refl h
  · split <;> rfl
  · split <;> rfl

/-- What a good frame touches (R84). -/
theorem takeFrame_exchangeOnly (ctx : Ctx) (h : Half) (f : Frame) : ExchangeOnly h (h.takeFrame ctx f).half := by
  have h1 : ∀ x : Half, ExchangeOnly x (x.takeReady f) := by
    intro x
    unfold Half.takeReady
    split <;> rfl
  have h2 : ∀ x : Half, ExchangeOnly x x.tryDone := by
    intro x
    unfold Half.tryDone
    split <;> rfl
  have h3 : ∀ x : Half, ExchangeOnly x (x.takeEcho f) := fun _ => rfl
  exact ((((((takeSession_exchangeOnly ctx h f).trans (takeSync_exchangeOnly _ f)).trans
    (takeReply_exchangeOnly ctx _ f)).trans (takeRequest_exchangeOnly _ f)).trans (h1 _)).trans (h3 _)).trans (h2 _)

/-- A good frame asks for no retrain of the lane. -/
theorem takeFrame_retrain (ctx : Ctx) (h : Half) (f : Frame) : (h.takeFrame ctx f).retrain = false := by
  have h1 : ∀ (x : Half), (x.acceptance ctx).retrain = false := by
    intro x
    unfold Half.acceptance
    dsimp only
    split <;> split <;> (try split) <;> rfl
  have h2 : ∀ (x : Half), (x.endDirection ctx).retrain = false := by
    intro x
    unfold Half.endDirection Half.endPass
    split
    · rfl
    · split
      · rfl
      · rfl
      · split
        · rfl
        · exact h1 x
  have h3 : ∀ (x : Half) (o : ReplyOutcome), (x.answered ctx o).retrain = false := by
    intro x o
    unfold Half.answered
    split <;> (try split) <;> first
      | rfl
      | exact h2 x
  show (Half.takeReply ctx _ f).retrain = false
  unfold Half.takeReply
  split
  · exact h3 _ _
  · rfl

end Sys2Proof.Machine
end

