-- ==== Sys2Proof/Tests/Slice0.lean ====
section
/-! SUPPORT. Tests: one step each on small states, with expected results from the manual's worked examples and tables, and a
witness for the hypotheses of each statement. The states are built from the manual's example wiring and Profile A. -/

namespace Sys2Proof.Tests

open Sys2Proof.Machine

set_option Elab.async false

/-! ## States -/

/-- The wiring of the manual's examples: leg 0 is cable lanes 2, 3, 0, 1, leg 1 lanes 4 and 5, leg 2 lane 7. -/
def exampleWiring : RawWiring := ⟨3, [⟨4, [2, 3, 0, 1]⟩, ⟨2, [4, 5]⟩, ⟨1, [7]⟩], Tab.fill 8 normalPair⟩

/-- Profile A of the manual's worked example "two applies". -/
def profileA : Profile :=
  { legs := Tab.ofFn fun k => match k with
      | 0 => ⟨true, 4, 1, .linear⟩
      | 1 => ⟨true, 0, 1, .interleaved⟩
      | 2 => ⟨true, 2, 0, .linear⟩
      | 3 => disabledLeg
    lanes := Tab.fill 8 normalPair }

/-- An image with the check of its contents. -/
def checked (img : FactoryImage) : FactoryImage := { img with check := imageCheck (imageBytes img) }

theorem checked_check (img : FactoryImage) : imageCheck (imageBytes (checked img)) = (checked img).check := rfl

/-- The same image with a check that does not match. -/
def damaged (img : FactoryImage) : FactoryImage := { img with check := ~~~imageCheck (imageBytes img) }

theorem damaged_check (img : FactoryImage) : imageCheck (imageBytes (damaged img)) ≠ (damaged img).check := by
  show imageCheck (imageBytes img) ≠ ~~~imageCheck (imageBytes img)
  intro h
  have := congrArg (fun x => x.getLsbD 0) h
  simp at this

/-- An image with the example wiring, Profile A, and every configurable policy entry ALLOW. -/
def image : FactoryImage := checked
  { serial := Tab.fill 16 7, lengthCode := 5, check := 0, wiring := exampleWiring, profile := profileA,
    policy := ⟨BitVec.allOnes 20, BitVec.allOnes 20, BitVec.allOnes 14, true⟩, hysteresis := 2, pWatch := 100,
    dDrop := 20, kAlarm := 3, legs := Tab.fill 4 ⟨60, true, true, 1, 2, 1, 2⟩ }

/-- The state a command leaves. -/
def after (c : Instr) (s : State) : State :=
  match exec c s with
  | .next t => t
  | .fault _ => s
  | .refused _ => s

/-- The part in RUNNING with Profile A, every wired lane in TRAIN. -/
def up : State := State.loadGood { State.reset with store := image } image

/-- `up` is what IMAGE_LOAD_COMPLETE leaves of the part right after reset, with a maker's image in the store (R187). -/
theorem up_is_loaded : exec (.imageLoadComplete (some image)) State.reset = .next up := by
  rw [execImageLoadComplete_running _ rfl rfl, completeLoad_eq]
  exact congrArg Host.Outcome.next (if_pos (imageCause_none (checked_check _) (by decide +kernel)))

/-- Both segments of a lane in DONE with partner session 6, in a given lane state. -/
def doneLane (st : LaneState) (l : Lane) : Lane :=
  Lane.mapHalves { l with state := st } fun h =>
    { h with seg := { h.seg with state := .done, partner := some 6, tAcquire := none, finalFom := some 83 } }

/-- Every lane of leg `k` done in a given lane state. -/
def legIn (k : LegId) (st : LaneState) (s : State) : State := s.mapLeg k fun _ l => doneLane st l

/-- Leg `k` LIVE. -/
def liveLeg (k : LegId) (s : State) : State :=
  { legIn k .carry s with legState := (legIn k .carry s).legState.set k .live }

/-- The part with legs 0, 1 and 2 LIVE. -/
def carrying : State := liveLeg 0 (liveLeg 1 (liveLeg 2 up))

/-- The part with legs 0 and 2 in TRAIN and leg 1 with one lane READY and the other in TRAIN. -/
def mixed : State := up.setLane 4 (doneLane .ready (up.lane 4))

/-- Cable lane `i`'s side rewritten. -/
def tweak (i : LaneId) (d : Side) (f : Half → Half) (s : State) : State := s.modifyHalf i d f

/-- Request fields with a mask. -/
def masked (m : BitVec 8) : ActionArgs := { resetArgs with mask := m }

/-- A segment in EXCHANGE whose search has accepted. -/
def acceptedHalf (h : Half) : Half :=
  { h with
    seg := { h.seg with
      state := .exchange, partner := some 6, synchronised := true, ownReady := true, tTune := some 800 }
    search := { h.search with phase := .accepted, reference := some 92 } }

/-- A scan in flight. -/
def scanning (o : Origin) (off : Nat) (edges : List Nat) (h : Half) : Half :=
  { h with scan := { h.scan with inFlight := some ⟨o, off, edges⟩ } }

/-- A port rewritten. -/
def portAs (p : PortId) (f : Port → Port) (s : State) : State := s.setPort p (f (s.port p))

/-- A port in a write part with a buffer. -/
def writingAt (p : PortId) (block : Nat) (es : List (Nat × Byte)) (s : State) : State :=
  portAs p (fun x => { x with phase := .writing, buffer := ⟨some block, es⟩ }) s

/-- A frame of session 6 with the given reply tag, ready flag and request kind. -/
def frame (ready : Bool) (kind : BitVec 3) (replyTag : BitVec 3) : Frame :=
  { session := 6, ready := ready, kind := kind, tap := 1, dir := false, preset := 0, tag := 2, replyTag := replyTag,
    replyOutcome := 1, echo := ⟨0, 48, 0, 0, 0⟩ }

/-! ## Well-formedness: each check refuses an ill-formed command -/

theorem test_wellFormed_refuses_count_above_window : Instr.wellFormed (.scanWindowEnd 0 .S 65537) = false := by decide

theorem test_wellFormed_refuses_action_code_as_reserved : Instr.wellFormed (.actionReserved 0 14 resetArgs) = false := by
  decide

theorem test_wellFormed_accepts_boundaries :
    Instr.wellFormed (.scanWindowEnd 0 .S 65536) = true ∧ Instr.wellFormed (.actionReserved 0 15 resetArgs) = true := by
  decide

/-! ## The manual's tables and worked examples -/

/-- The check of "123456789" under the generator and the register of R192 is 0x29B1 (the published check value of this
code). -/
theorem test_check_of_known_string :
    imageCheck [0x31, 0x32, 0x33, 0x34, 0x35, 0x36, 0x37, 0x38, 0x39] = 0x29B1 := by decide +kernel

/-- Chapter 1, "two applies": the route table and the inverse table of Profile A. Chapter 2, "a two-lane leg comes up": the
load sends both lanes of leg 1 to TRAIN with own session 1. -/
theorem test_load_routes_and_trains :
    (Tab.indices 8).map (fun i => (up.route.get i).switchLane) =
      [some 7, some 4, some 5, some 6, some 1, some 0, none, some 2] ∧
      up.inverse.list = [some 5, some 4, some 7, none, some 1, some 2, some 3, some 0] ∧
      (up.lane 4).state = .train ∧ (up.half 5 .C).seg.state = .detect ∧ (up.half 5 .C).seg.own = 1 ∧
      up.legState.get 1 = .forming ∧ (up.lane 6).state = .off ∧ (up.lane 4).trainings = 1 := by decide +kernel

/-- The pending profile of the first apply of "two applies". -/
def profileB : Profile :=
  { legs := Tab.ofFn fun k => match k with
      | 0 => ⟨true, 4, 1, .interleaved⟩
      | 1 => ⟨true, 0, 1, .interleaved⟩
      | 2 => ⟨true, 3, 0, .linear⟩
      | 3 => disabledLeg
    lanes := (Tab.fill 8 normalPair).set 0 ⟨.inverted, .normal⟩ }

/-- All legs LIVE and the pending profile of "two applies" written. -/
def beforeApply : State := { carrying with pendingProfile := profileB }

/-- "two applies": the new switch lanes and the cases handed to the lanes. -/
theorem test_applyProfile_cases :
    (Tab.indices 8).map (fun i => (((after (.applyProfile 0 resetArgs) beforeApply).route.get i).switchLane,
      ((after (.applyProfile 0 resetArgs) beforeApply).lane i).cases.map fun c => c.changed)) =
      [(some 7, [true]), (some 6, [true]), (some 5, [true]), (some 4, [true]), (some 1, [false]), (some 0, [true]),
        (none, []), (some 3, [true])] := by decide +kernel

/-- An apply that disables leg 2 marks LEG at M3 although the table hides every group of the leg record from it (R183,
"Applies"), and clears the flags of the groups it unmaps (R182). -/
theorem test_applyProfile_marks_hidden_leg :
    let s := { carrying with
      policy := { carrying.policy with read := carrying.policy.read &&& ~~~0x1F#20 }
      pendingProfile := { profileA with legs := profileA.legs.set 2 disabledLeg } }
    ((after (.applyProfile 0 resetArgs) s).port 3).bitmap = 0b10#20 := by decide +kernel

/-- "two applies": cable lane 5's changed case sends it through DOWN to TRAIN, and cable lane 4 is pulled back to READY. -/
theorem test_applyLaneCase_pulls_peer_back :
    let t := after (.applyLaneCase 5) (after (.applyProfile 0 resetArgs) beforeApply)
    (t.lane 5).state = .train ∧ (t.lane 4).state = .ready ∧ t.legState.get 1 = .forming ∧ (t.lane 5).drops = 0 := by
  decide +kernel

/-- Chapter 2, "a two-lane leg comes up": T_acquire expires on lane 5 C, and the lane waits with fc 1. -/
theorem test_tAcquireExpiry_waits :
    let t := after (.tAcquireExpiry 5 .C) up
    (t.lane 5).state = .wait ∧ (t.lane 5).fc = 1 ∧ (t.half 5 .C).seg.reason = .acquireTimeout ∧
      (t.half 5 .S).seg.state = .idle ∧ (t.lane 4).state = .train := by decide +kernel

/-- The same: T_quiet expires, and the lane trains again with own session 2 and fc 1. -/
theorem test_tQuietExpiry_trains_again :
    let t := after (.tQuietExpiry 5) (after (.tAcquireExpiry 5 .C) up)
    (t.lane 5).state = .train ∧ (t.half 5 .S).seg.own = 2 ∧ (t.lane 5).fc = 1 ∧ (t.lane 5).trainings = 2 := by
  decide +kernel

/-- The same: a good frame of session 6 on lane 4 S ends DETECT. -/
theorem test_frameReceived_ends_detect :
    let t := after (.frameReceived (.sPair 1) (frame false 0 4).encode) up
    (t.half 4 .S).seg.state = .exchange ∧ (t.half 4 .S).seg.partner = some 6 ∧
      (t.half 4 .S).req.outstanding = some (.preset 1, 0) ∧ (t.half 4 .C).seg.state = .detect := by decide +kernel

/-- Leg 1 with lane 4 READY and lane 5's C-segment about to complete. -/
def lastHandshake : State := tweak 5 .C acceptedHalf (mixed.setLane 5 (doneLane .train (mixed.lane 5)))

/-- The same: the last handshake takes both lanes into CARRY, baselines from the final FOMs. -/
theorem test_frameReceived_completes_leg :
    let t := after (.frameReceived (.cPair 5) (frame true 0 4).encode) lastHandshake
    (t.lane 4).state = .carry ∧ (t.lane 5).state = .carry ∧ t.legState.get 1 = .live ∧
      (t.half 5 .C).watch.baseline = some 92 ∧ (t.half 4 .S).watch.baseline = some 83 := by decide +kernel

/-- The same: lane 5's C-receiver loses signal first; lane 5 drops, and lane 4 is moved to READY. -/
theorem test_signalLost_drops_and_pulls_back :
    let t := after (.signalLost (.cPair 5)) carrying
    (t.lane 5).state = .train ∧ (t.lane 5).drops = 1 ∧ (t.lane 4).state = .ready ∧ t.legState.get 1 = .forming ∧
      t.legState.get 0 = .live := by decide +kernel

/-- The same: the loss on lane 4's C-receiver is then a segment failure with LOCK_LOST. -/
theorem test_signalLost_fails_ready_lane :
    let t := after (.signalLost (.cPair 4)) (after (.signalLost (.cPair 5)) carrying)
    (t.lane 4).state = .wait ∧ (t.lane 4).failures = 1 ∧ (t.lane 4).drops = 0 ∧ (t.half 4 .C).seg.reason = .lockLost := by
  decide +kernel

/-- Chapter 2, "holds from three sources", step 1: HOLD from M0 naming cable lane 2 (switch lane 5). -/
theorem test_hold_from_switch :
    let t := after (.hold 0 (masked 0x20) 0) carrying
    (t.lane 2).state = .down ∧ (t.lane 2).hold = ⟨true, false, false⟩ ∧ (t.lane 3).state = .ready ∧
      (t.lane 0).state = .ready ∧ (t.port 0).action.overall = .done := by decide +kernel

/-- Step 2: leg reset line 0 asserted. -/
theorem test_legResetAsserted_holds_all :
    let t := after (.legResetAsserted 0) (after (.hold 0 (masked 0x20) 0) carrying)
    (t.lane 2).hold = ⟨true, false, true⟩ ∧ (t.lane 3).hold = ⟨false, false, true⟩ ∧ (t.lane 1).state = .down := by
  decide +kernel

/-- Step 4: leg reset line 0 released; only the switch's hold stays. -/
theorem test_legResetReleased_keeps_switch_hold :
    let t := after (.legResetReleased 0) (after (.legResetAsserted 0) (after (.hold 0 (masked 0x20) 0) carrying))
    (t.lane 2).state = .down ∧ (t.lane 2).hold = ⟨true, false, false⟩ ∧ (t.lane 3).state = .train := by decide +kernel

/-- Step 5: RELEASE from M0. -/
theorem test_release_trains :
    let t := after (.release 0 (masked 0x20) 0) (after (.hold 0 (masked 0x20) 0) carrying)
    (t.lane 2).state = .train ∧ (t.lane 2).hold = ⟨false, false, false⟩ := by decide +kernel

/-- Chapter 3, "one C-transmitter", steps 1 to 4: TRY, KEEP, TRY, BACK of POST1 -1 from P2. -/
theorem test_try_keep_try_back :
    let u := ((TxUnit.load 2).trial .post1 .minus).1
    u = ⟨⟨0, -13, 0⟩, [⟨0, -12, 0⟩]⟩ ∧ (u.keep.1.trial .post1 .minus).1.current = ⟨0, -14, 0⟩ ∧
      (u.keep.1.trial .post1 .minus).1.back = (⟨⟨0, -13, 0⟩, []⟩, .applied) ∧ Setting.main ⟨0, -14, 0⟩ = 34 := by
  decide +kernel

/-- Chapter 3, "the stack at its limits", steps 2, 3 and 6. -/
theorem test_stack_limits :
    (TxUnit.save ⟨⟨-4, -12, 2⟩, List.replicate 8 ⟨-4, -12, 2⟩⟩).2 = .stackFull ∧
      (TxUnit.step ⟨⟨-4, -12, 2⟩, List.replicate 8 ⟨-4, -12, 2⟩⟩ .post1 .minus).2 = .applied ∧
      (TxUnit.step ⟨⟨-4, -18, 2⟩, []⟩ .post1 .minus).2 = .atLimit := by decide +kernel

/-- The C-transmitter of cable lane 7 at the setting of step 9 of "one C-transmitter", in CARRY. -/
def tuned : State := tweak 7 .C (fun h => { h with tx := ⟨⟨-1, -13, 0⟩, []⟩ }) carrying

/-- A FAR-side request on switch lane 2, which is cable lane 7 under Profile A. -/
def farArgs : ActionArgs := { masked 0x04 with side := .far, tap := 2, direction := .plus, preset := 3 }

/-- Step 10: SAVE in CARRY is DONE. -/
theorem test_save_in_carry :
    let t := after (.save 0 farArgs 0) tuned
    (t.half 7 .C).tx = ⟨⟨-1, -13, 0⟩, [⟨-1, -13, 0⟩]⟩ ∧ (t.port 0).action.perLane.get 2 = .done ∧
      (t.half 7 .S).tx = (tuned.half 7 .S).tx := by decide +kernel

/-- Step 11: STEP POST2 +1. -/
theorem test_step_post2 :
    (((after (.step 0 farArgs 0) tuned).half 7 .C).tx.current) = ⟨-1, -13, 1⟩ := by decide +kernel

/-- Step 13: RESTORE returns to the saved setting. -/
theorem test_restore :
    ((after (.restore 0 farArgs 0) (after (.save 0 farArgs 0) tuned)).half 7 .C).tx = ⟨⟨-1, -13, 0⟩, []⟩ := by
  decide +kernel

/-- Step 14: RESTORE of an empty stack. -/
theorem test_restore_empty :
    (((after (.restore 0 farArgs 0) tuned).port 0).action.perLane.get 2) = .stackEmpty := by decide +kernel

/-- DISCARD of an empty stack, and PRESET P3 (R62, R67, R69). -/
theorem test_discard_and_preset :
    ((after (.discard 0 farArgs 0) tuned).port 0).action.perLane.get 2 = .stackEmpty ∧
      ((after (.preset 0 farArgs 0) tuned).half 7 .C).tx = ⟨⟨-4, -12, 2⟩, []⟩ := by decide +kernel

/-- Step 9: a SAVE while the segment is in EXCHANGE is BUSY. -/
theorem test_save_busy_in_exchange :
    ((after (.save 0 farArgs 0) (tweak 7 .C acceptedHalf up)).port 0).action.perLane.get 2 = .busy := by decide +kernel

/-- Chapter 5, "a reading": heights 27, 31 and 26 give FOM 80 (edges in the order of R106). -/
theorem test_figure_of_merit : figureOfMerit [14, 13, 16, 15, 12, 14] = 80 := by decide

/-- Chapter 5, "one edge": offset 15 passes on 3 and offset 16 fails on 9, so the edge ends at 15. -/
theorem test_scanWindowEnd_edge :
    let t := after (.scanWindowEnd 7 .C 9) (after (.scanWindowEnd 7 .C 3) (tweak 7 .C (scanning .action 15 [14, 13]) carrying))
    (t.half 7 .C).scan.inFlight = some ⟨.action, 1, [14, 13, 15]⟩ := by decide +kernel

/-- Chapter 6, "a C-side alarm": against baseline 83 with D_drop 20, 62 is an alarm reading and 66 is not. -/
theorem test_alarm_readings :
    alarmReading 20 (some 83) (some 62) = true ∧ alarmReading 20 (some 83) (some 63) = true ∧
      alarmReading 20 (some 83) (some 66) = false ∧ alarmReading 20 (some 83) none = true := by decide

/-- The same, period 4: the receiver loses lock during the scan; NO READING is an alarm reading, the lane stays in CARRY. -/
theorem test_lockLost_is_alarm :
    let t := after (.lockLost (.cPair 7)) (tweak 7 .C (scanning .watch 5 []) carrying)
    (t.half 7 .C).watch.low = 1 ∧ (t.half 7 .C).watch.alarm = true ∧ (t.half 7 .C).watchAlarms = 1 ∧
      (t.lane 7).state = .carry ∧ (t.half 7 .C).seg.tRelock = some 2 := by decide +kernel

/-- The same: lock returns in time, and T_relock stops. -/
theorem test_lockRegained :
    ((after (.lockRegained (.cPair 7)) (after (.lockLost (.cPair 7)) carrying)).half 7 .C).seg.tRelock = none := by
  decide +kernel

/-- The same, period 6: a requested retrain takes the lane to TRAIN, counting a retrain and no drop. -/
theorem test_watchRetrainRequest :
    let t := after (.watchRetrainRequest 7) (carrying.setLane 7 { carrying.lane 7 with retrainRequested := true })
    (t.lane 7).state = .train ∧ (t.lane 7).retrains = 1 ∧ (t.lane 7).drops = 0 := by decide +kernel

/-- The watch asks the receivers of lanes in CARRY to scan, and starts its next period (R132, R133). -/
theorem test_watchPeriodExpiry :
    let t := after .watchPeriodExpiry carrying
    (t.half 7 .S).scan.inFlight = some ⟨.watch, 1, []⟩ ∧ (t.half 6 .S).scan.inFlight = none ∧
      t.watchTimer = some 1000 := by decide +kernel

/-- Chapter 9, "a leg host meets its policy": policy and busy mask of the example. -/
def policed : State :=
  { carrying with
    policy := { carrying.policy with read := ~~~(1#20 <<< 13), write := carrying.policy.write &&& ~~~(1#20 <<< 3) }
    busy := carrying.busy.set 1 ⟨false, false, true, false⟩ }

/-- Steps 1 to 3: THRESHOLD and RETRAIN are stored and PRESETS is refused by the table; the tuning class is under TUNE, so a
write to it is BUSY; block 0x0A is unmapped. -/
theorem test_registerWrite_policy_busy_and_unmapped :
    let t := after (.registerWrite 2 0) (writingAt 2 1
      [(2, 70), (3, 1), (4, 1), (5, 1), (6, 2), (7, 1), (8, 3)] policed)
    ((t.legs.get 1).threshold = 70 ∧ (t.legs.get 1).cPartner = 2 ∧
      (t.port 2).status = ⟨.partly, 1, 0, 0, some 0x45⟩) ∧
      ((after (.registerWrite 2 0) (writingAt 2 0x10 [(0, 1)] policed)).port 2).status = ⟨.busy, 0, 1, 0, some 0x400⟩ ∧
      ((after (.registerWrite 2 0) (writingAt 2 0x0A [(0, 1)] policed)).port 2).status =
        ⟨.unmapped, 0, 0, 1, some 0x280⟩ := by
  decide +kernel

/-- Step 4: a byte of the refused SEARCH group reads 0x00 and is remembered. -/
theorem test_readByteSent_refused :
    let t := after (.readByteSent 2) (portAs 2 (fun x => { x with phase := .reading, pointer := 0x41D }) policed)
    (t.port 2).line = .data 0 ∧ (t.port 2).sentRefused = true := by decide +kernel

/-- Step 4: at the end of the part the status is REFUSED and its discarded address stays. -/
theorem test_readPartEnd_refused :
    let t := after (.readPartEnd 2) (portAs 2 (fun x =>
      { x with phase := .reading, sentRefused := true, status := ⟨.unmapped, 1, 1, 1, some 0x280⟩ }) policed)
    (t.port 2).status = ⟨.refused, 2, 1, 1, some 0x280⟩ ∧ (t.port 2).phase = .idle := by decide +kernel

/-- Step 5: COUNTS. -/
theorem test_countsZero :
    ((after (.countsZero 2 (some 0) (some 0) none)
      (portAs 2 (fun x => { x with status := ⟨.refused, 2, 1, 1, some 0x280⟩ }) policed)).port 2).status =
      ⟨.ok, 0, 0, 1, none⟩ := by decide +kernel

/-- Step 5, "Had the host written the unmapped count as 1". -/
theorem test_countsZero_refused :
    ((after (.countsZero 2 (some 0) (some 0) (some 1))
      (portAs 2 (fun x => { x with status := ⟨.refused, 2, 1, 1, some 0x280⟩ }) policed)).port 2).status.refused = 3 := by
  decide +kernel

/-- Chapter 10, "one retrain, three ports", step 1: M2 writes RETRAIN of leg lane 0, which the lane takes later. The lane's
S-transmitter has been stepped since the load, so that its tuning record changes at TRAIN. -/
def retrainWritten : State :=
  after (.retrain 2 (masked 0x01) 0x01) (tweak 4 .S (fun h => { h with tx := ⟨⟨0, -13, 0⟩, []⟩ }) carrying)

/-- Step 1: no bitmap but M2's changes. The overall outcome stands until the lane has taken its operation (log 10), and the
outcome fields are already clear, so nothing is marked yet. -/
theorem test_retrain_handed :
    (retrainWritten.port 0).bitmap = 0 ∧ (retrainWritten.port 1).bitmap = 0 ∧
      (retrainWritten.port 2).handed = [⟨0, 4⟩] := by decide +kernel

/-- Step 2: LANE 0, LANE 1, TUNE 1 and LEG at M0; ACTION, LANE 0, LANE 1, TUNE 0 and LEG at M2; nothing at M1. -/
theorem test_actionLaneOperation_marks :
    let t := after (.actionLaneOperation 2 0) retrainWritten
    (t.port 0).bitmap = 0b00000000100000001110#20 ∧ (t.port 2).bitmap = 0b01000000010000001110#20 ∧
      (t.port 1).bitmap = 0 ∧ (t.lane 4).state = .train ∧ (t.lane 5).state = .ready := by decide +kernel

/-- "A segment that enters EXCHANGE just after an action is taken does not undo the action" (R73): the SAVE was handed out
before. -/
theorem test_actionLaneOperation_setting_stands :
    let s := after (.save 2 (masked 0x01) 0x01) carrying
    let t := after (.actionLaneOperation 2 0) (tweak 4 .C (fun h => { h with seg := { h.seg with state := .exchange } }) s)
    (t.port 2).action.perLane.get 0 = .done ∧ (t.half 4 .C).tx.stack.length = 1 := by decide +kernel

/-- Step 3: M2 writes ones to LANE 0 and LANE 1; its alert line follows. -/
theorem test_bitmapClear :
    let t := after (.bitmapClear 2 0b1100#20) (portAs 2 (fun x =>
      { x with bitmap := 0b01000000010000001110#20, mask := 0b1100#20 }) carrying)
    (t.port 2).bitmap = 0b01000000010000000010#20 ∧ alertLine t 2 = false := by decide +kernel

/-- ALERT_MASK_WRITE stores the mask, and the alert line follows (R184, R185). -/
theorem test_alertMaskWrite :
    let t := after (.alertMaskWrite 0 0b10#20) (portAs 0 (fun x => { x with bitmap := 0b10#20 }) carrying)
    (t.port 0).mask = 0b10#20 ∧ alertLine t 0 = true := by decide +kernel

/-- RETRAIN of a lane in DOWN is BUSY (R149). -/
theorem test_retrain_busy_in_down :
    ((after (.retrain 0 (masked 0x20) 0) (after (.hold 0 (masked 0x20) 0) carrying)).port 0).action.perLane.get 5 = .busy := by
  decide +kernel

/-- MEASURE starts an ACTION scan (R154). -/
theorem test_measure :
    ((after (.measure 0 (masked 0x04) 0) carrying).half 7 .S).scan.inFlight = some ⟨.action, 1, []⟩ := by decide +kernel

/-- CLEAR_COUNTERS zeroes the counters (R152). -/
theorem test_clearCounters : ((after (.clearCounters 0 (masked 0x04) 0) up).lane 7).trainings = 0 := by decide +kernel

/-- FREEZE stops the timer, and THAW starts a full period (R140, R141). -/
theorem test_freeze_thaw :
    let t := after (.freeze 0 resetArgs) up
    t.watchTimer = none ∧ (after (.thaw 0 resetArgs) t).watchTimer = some 1000 := by decide +kernel

/-- SOFT_RESET retrains a lane with a new session (R59). -/
theorem test_softReset :
    let t := after (.softReset 0 resetArgs) carrying
    (t.lane 4).state = .train ∧ (t.lane 4).trainings = 1 ∧ (t.half 4 .C).seg.own = 2 ∧ t.legState.get 1 = .forming := by
  decide +kernel

/-- A leg host's SOFT_RESET is refused (R175). -/
theorem test_softReset_refused_to_leg_host :
    let t := after (.softReset 2 resetArgs) carrying
    (t.port 2).action.overall = .refused ∧ (t.lane 4).state = .carry := by decide +kernel

/-- A reserved code is refused (R145). -/
theorem test_actionReserved :
    ((after (.actionReserved 0 15 (masked 0x01)) carrying).port 0).action.perLane.get 0 = .refused := by decide +kernel

/-- POWER_ON with the switch line released begins a load; asserted, none runs (R187). -/
theorem test_powerOn :
    (after (.powerOn false (Tab.fill 4 false)) carrying).loadRunning = true ∧
      (after (.powerOn true (Tab.fill 4 false)) carrying).loadRunning = false := by decide +kernel

/-- SWITCH_RESET_ASSERTED and SWITCH_RESET_RELEASED (R187). -/
theorem test_switchReset :
    let t := after .switchResetAsserted carrying
    t.part = .loading ∧ (t.lane 4).state = .off ∧ (after .switchResetReleased t).loadRunning = true := by decide +kernel

/-- The part in IMAGE_FAULT, its store damaged. -/
def faulted : State := State.loadBad { State.reset with store := damaged image } (damaged image) .check

/-- A bad check leads to IMAGE_FAULT with cause CHECK (R186), from the store as the state holds it. -/
theorem test_imageLoadComplete_bad :
    exec (.imageLoadComplete none) { State.reset with store := damaged image } = .next faulted ∧
      faulted.faultCause = .check := by
  have h : imageCause (damaged image) = .check := imageCause_check (damaged_check _)
  refine ⟨?_, rfl⟩
  rw [execImageLoadComplete_running _ rfl rfl, completeLoad_eq]
  simp only [Option.getD_none, h]
  rfl

/-- T_RELOCK_EXPIRY in CARRY drops (R36, R48). -/
theorem test_tRelockExpiry :
    ((after (.tRelockExpiry 7 .C) (after (.lockLost (.cPair 7)) carrying)).lane 7).drops = 1 := by decide +kernel

/-- T_TUNE_EXPIRY and T_REPLY_EXPIRY record their reasons (R34, R95). -/
theorem test_tTune_tReply :
    let s := tweak 7 .C (fun h => { acceptedHalf h with req := { h.req with tReply := some 4 } }) up
    ((after (.tTuneExpiry 7 .C) s).half 7 .C).seg.reason = .tuneTimeout ∧
      ((after (.tReplyExpiry 7 .C) s).half 7 .C).seg.reason = .replyTimeout := by decide +kernel

/-- T_SETTLE_EXPIRY starts a SEARCH scan (R117). -/
theorem test_tSettleExpiry :
    ((after (.tSettleExpiry 7 .C) (tweak 7 .C (fun h =>
      { acceptedHalf h with search := { h.search with phase := .reference, tSettle := some 1 } }) up)).half 7 .C).scan.inFlight =
      some ⟨.search, 1, []⟩ := by decide +kernel

/-- Traffic of a symbol of level 1 from an inverted C-receiver to an inverted S-transmitter leaves as level 1, through a
normal one as level 2, shaped by the transmitter's current setting (R4, R9, R30, R60). -/
theorem test_retimed_polarity :
    let s := { carrying with wiring := { carrying.wiring with cPolarity := Tab.fill 8 ⟨.inverted, .normal⟩ } }
    let s' := { s with current := { s.current with lanes := Tab.fill 8 ⟨.normal, .inverted⟩ } }
    retimed s' 4 .S 1#2 = some (1#2, ⟨-2, -6, 0⟩) ∧ retimed s 4 .S 1#2 = some (2#2, ⟨-2, -6, 0⟩) ∧
      retimed up 4 .S 1#2 = none := by decide +kernel

/-- SIGNAL_PRESENT (R33). -/
theorem test_signalPresent :
    (after (.signalPresent (.cPair 7)) (after (.signalLost (.cPair 7)) carrying)).cRx.get 7 = ⟨true, false⟩ := by
  decide +kernel

/-- The bus: a start, the pointer bytes, a data byte (R162, R163, R166). -/
theorem test_busStartAddress :
    ((after (.busStartAddress 0 0x3A .write) carrying).port 0).phase = .pointerHigh ∧
      ((after (.busStartAddress 4 0x3A .write) carrying).port 4).line = .released := by decide +kernel

theorem test_pointerByte :
    ((after (.pointerByte 0 0x3C) (portAs 0 (fun x => { x with phase := .pointerLow 0x0C }) carrying)).port 0).pointer =
      0x0C3C := by decide +kernel

/-- The wrap from offset 63 to offset 0 of the same block (R163). -/
theorem test_dataByteWritten_wraps :
    let t := after (.dataByteWritten 0 7) (portAs 0 (fun x => { x with phase := .writing, pointer := 0x0C3F }) carrying)
    (t.port 0).pointer = 0x0C00 ∧ (t.port 0).buffer = ⟨some 0x30, [(63, 7)]⟩ := by decide +kernel

/-- HOST_NACK ends the read part (R162). -/
theorem test_hostNack :
    ((after (.hostNack 0) (after (.readByteSent 0) (portAs 0 (fun x => { x with phase := .reading }) carrying))).port 0).phase =
      .readEnded := by decide +kernel

/-! ## Witnesses: for each statement with hypotheses, states that meet them, one for each clause -/

theorem witness_ResetsClearThePart : (after .switchResetAsserted carrying).switchLine = true := by decide +kernel

/-- An image whose leg 0 profile is misaligned, and one whose wiring record has no legs. -/
def misaligned : FactoryImage :=
  checked { image with profile := { profileA with legs := profileA.legs.set 0 ⟨true, 2, 0, .linear⟩ } }
def legless : FactoryImage := checked { image with wiring := ⟨0, [], Tab.fill 8 normalPair⟩ }

/-- The part in LOADING with leg 1's reset line asserted. -/
def heldLoad : State := { State.reset with legLines := State.reset.legLines.set 1 true }

theorem witness_GoodImageBringsThePartUp :
    heldLoad.legLaw ∧ heldLoad.part = .loading ∧ heldLoad.loadRunning = true ∧
      imageCheck (imageBytes ((some image).getD heldLoad.store)) = image.check ∧
      wiringValid image.wiring = true ∧ validate (installWiring image.wiring) image.profile = none :=
  ⟨by decide +kernel, rfl, rfl, checked_check _, by decide +kernel, by decide +kernel⟩

theorem witness_BadImagesAndProfilesAreRefused :
    (State.reset.part = .loading ∧ State.reset.loadRunning = true ∧ State.reset.legLaw) ∧
      imageCheck (imageBytes (damaged image)) ≠ (damaged image).check ∧
      (imageCheck (imageBytes legless) = legless.check ∧ wiringValid legless.wiring = false) ∧
      imageCheck (imageBytes misaligned) = misaligned.check ∧ wiringValid misaligned.wiring = true ∧
      validate (installWiring misaligned.wiring) misaligned.profile = some (.misaligned, 0) :=
  ⟨by decide +kernel, damaged_check _, ⟨checked_check _, by decide +kernel⟩, checked_check _, by decide +kernel,
    by decide +kernel⟩

/-- A LIVE leg 0, leg 1 with lane 4 held by the switch host and lane 5 in READY, leg 2 LIVE. -/
def held : State := after (.hold 0 (masked 0x02) 0) carrying

/-- The same with leg 1's reset line asserted. -/
def lineHeld : State := after (.legResetAsserted 1) held

theorem witness_LegResetLineHoldsAndFreesTheLeg :
    held.legOf 4 = some 1 ∧ (held.lane 4).state = .down ∧ (held.lane 5).state = .ready ∧ (held.lane 6).state = .off ∧
      carrying.legState.get 1 = .live ∧ lineHeld.legLines.get 1 = true ∧ (lineHeld.port (legPort 1)).handed = [] ∧
      (lineHeld.lane 4).hold.switch = true ∧ (lineHeld.lane 5).state = .down ∧
      (lineHeld.lane 5).hold.switch = false ∧ lineHeld.legOf 0 ≠ some 1 := by
  decide +kernel

/-- An operation still out through leg 1's port when the leg's reset line is released. -/
theorem witness_LegResetLine_operationOut :
    ((after (.legResetAsserted 1) (after (.clearCounters 2 (masked 0x03) 0x03) carrying)).port (legPort 1)).handed =
        [⟨0, 4⟩, ⟨1, 5⟩] ∧
      (after (.legResetAsserted 1) (after (.clearCounters 2 (masked 0x03) 0x03) carrying)).legLines.get 1 = true := by
  decide +kernel

/-- Cable lane 7's C-segment in EXCHANGE, cable lane 4 READY. -/
def training : State := tweak 7 .C acceptedHalf mixed

theorem witness_SignalLossDropsOrFailsTheLane :
    (carrying.rx (.sPair 1)).signal = true ∧ carrying.standing (.sPair 1) = some (4, .S) ∧
      (carrying.lane 4).state = .carry ∧ (carrying.half 4 .S).seg.state = .done ∧ carrying.legOf 4 = some 1 ∧
      (training.rx (.cPair 7)).signal = true ∧ training.standing (.cPair 7) = some (7, .C) ∧
      (training.lane 7).state = .train ∧ (training.half 7 .C).seg.state = .exchange ∧
      training.standing (.cPair 4) = some (4, .C) ∧ (training.lane 4).state = .ready ∧
      (training.half 4 .C).seg.state = .done := by decide +kernel

theorem witness_LossBeforeExchangeIsNoFailure :
    up.standing (.cPair 5) = some (5, .C) ∧ (up.half 5 .C).seg.state = .detect ∧
      (up.half 5 .C).scan.inFlight = none ∧ (up.rx (.cPair 5)).signal = true ∧ (up.rx (.cPair 5)).lock = true ∧
      (tweak 5 .C (scanning .action 5 []) up).standing (.cPair 5) = some (5, .C) ∧
      ((tweak 5 .C (scanning .action 5 []) up).half 5 .C).scan.inFlight = some ⟨.action, 5, []⟩ ∧
      ((tweak 5 .C (scanning .action 5 []) up).half 5 .C).seg.state = .detect ∧
      up.standing (.cPair 6) = some (6, .C) ∧ (up.half 6 .C).seg.state = .idle ∧
      (up.half 6 .C).scan.inFlight = none ∧ (up.rx (.cPair 6)).signal = true := by decide +kernel

theorem witness_LockLossAndReturnMoveRelock :
    (training.rx (.cPair 7)).lock = true ∧ training.standing (.cPair 7) = some (7, .C) ∧
      (training.half 7 .C).seg.state = .exchange ∧ (training.half 7 .C).scan.inFlight = none ∧
      (training.lane 7).segmentLaw = true ∧ (training.half 4 .C).seg.state = .done ∧
      (training.lane 4).segmentLaw = true ∧ ((after (.signalLost (.cPair 5)) up).rx (.cPair 5)).signal = false ∧
      (after (.lockLost (.cPair 5)) up).rx (.cPair 5) = ⟨true, false⟩ ∧
      (after (.lockLost (.cPair 5)) up).standing (.cPair 5) = some (5, .C) ∧
      (after (.lockLost (.sPair 3)) up).rx (.sPair 3) = ⟨true, false⟩ ∧
      (after (.lockLost (.sPair 3)) up).standing (.sPair 3) = none := by decide +kernel

/-- Cable lane 7's C-segment in EXCHANGE with a scan in flight and perhaps a search request that waits. -/
def scanningSegment (o : Origin) (wait : Bool) : State :=
  tweak 7 .C (fun h => { scanning o 31 [1, 2, 3, 4, 5] h with
    scan := { (scanning o 31 [1, 2, 3, 4, 5] h).scan with waiting := wait } }) training

/-- The same with the segment in DONE. -/
def scanningDone : State :=
  tweak 7 .C (fun h => { h with seg := { h.seg with state := .done } }) (scanningSegment .action true)

theorem witness_LockLoss_scanInFlight :
    ((scanningSegment .action true).rx (.cPair 7)).lock = true ∧
      (scanningSegment .action true).standing (.cPair 7) = some (7, .C) ∧
      ((scanningSegment .action true).half 7 .C).seg.state = .exchange ∧
      ((scanningSegment .action true).half 7 .C).scan.inFlight = some ⟨.action, 31, [1, 2, 3, 4, 5]⟩ ∧
      ((scanningSegment .action true).half 7 .C).scan.waiting = true ∧
      ((scanningSegment .action true).lane 7).segmentLaw = true ∧
      ((scanningSegment .search false).half 7 .C).scan.waiting = false ∧
      (scanningDone.half 7 .C).seg.state = .done ∧ (scanningDone.lane 7).segmentLaw = true := by decide +kernel

/-- A WATCH scan on cable lane 7's C-receiver, with 14 and with 15 low readings before. -/
def watched (low : Nat) : State :=
  tweak 7 .C (fun h => { scanning .watch 5 [] h with watch := ⟨some 83, true, low⟩ }) carrying

theorem witness_LockLossDuringAWatchScanIsAnAlarm :
    ((watched 15).rx (.cPair 7)).lock = true ∧ (watched 15).standing (.cPair 7) = some (7, .C) ∧
      ((watched 15).lane 7).state = .carry ∧ ((watched 15).half 7 .C).seg.state = .done ∧
      ((watched 15).half 7 .C).scan.inFlight = some ⟨.watch, 5, []⟩ ∧ ((watched 15).half 7 .C).watch.low ≤ 15 ∧
      ((watched 2).legConfig 7).autoRetrain = true ∧ (watched 2).kAlarm ≤ 3 := by decide +kernel

theorem witness_DiscardedFramesOnlyLeaveTheirTrace :
    training.rx (.cPair 7) = ⟨true, true⟩ ∧ training.standing (.cPair 7) = some (7, .C) ∧
      (training.half 7 .C).seg.state ≠ .idle ∧
      receive (training.rxPolarity (.cPair 7)) ((frame true 0 4).encode ^^^ 1#94) = .badCheck ∧
      receive (training.rxPolarity (.cPair 7)) (throughPolarity .inverted (frame true 0 4).encode) = .inverted ∧
      (training.lane 7).state ≠ .carry ∧ receive (training.rxPolarity (.cPair 7)) 0 = .noMarker ∧
      carrying.standing (.cPair 7) = some (7, .C) ∧ (carrying.lane 7).state = .carry := by decide +kernel

theorem witness_GoodFrameEndsDetect :
    up.rx (.sPair 1) = ⟨true, true⟩ ∧ up.standing (.sPair 1) = some (4, .S) ∧ (up.lane 4).state = .train ∧
      (up.half 4 .S).seg.state = .detect ∧ (up.half 4 .S).seg.synchronised = false ∧
      (up.half 4 .S).seg.ownReady = false ∧ (up.half 4 .S).seg.partnerReady = false ∧
      (up.half 4 .S).req = Requester.reset ∧ (up.half 4 .S).resp = ⟨none, .none⟩ ∧
      receive (up.rxPolarity (.sPair 1)) (frame true 0 4).encode = .good (frame true 0 4) ∧
      (frame true 0 4).reply? = none ∧ (frame true 0 4).request = .none ∧ (frame true 0 3).reply? = some 3 ∧
      (frame true 2 4).request = .request (.trial .post1 .minus) ∧ (frame true 7 4).request = .bad := by decide +kernel

/-- Cable lane 7's C-segment in EXCHANGE with an opening PRESET outstanding under tag 3. -/
def asking : State :=
  tweak 7 .C (fun h => { h with
    seg := { h.seg with ownReady := false }
    search := { h.search with phase := .opening }
    req := { h.req with outstanding := some (.preset 1, 3), tReply := some 4 } }) training

/-- The C-segment of cable lane 7 unsynchronised, with a request that waits. -/
def waiting : State :=
  tweak 7 .C (fun h => { h with
    seg := { h.seg with synchronised := false }, req := { h.req with handed := some (.preset 1) } }) asking

theorem witness_ExchangeFramesAreTakenFieldByField :
    (training.rx (.cPair 7) = ⟨true, true⟩ ∧ training.standing (.cPair 7) = some (7, .C) ∧
      (training.lane 7).state = .train ∧ (training.half 7 .C).seg.state = .exchange ∧
      receive (training.rxPolarity (.cPair 7)) (frame true 0 4).encode = .good (frame true 0 4) ∧
      (training.half 7 .C).seg.ownReady = true ∧ (training.half 7 .S).seg.state ≠ .done ∧
      (training.half 7 .C).req.outstanding = none) ∧
    (asking.standing (.cPair 7) = some (7, .C) ∧ (asking.half 7 .C).req.outstanding = some (.preset 1, 3) ∧
      (frame true 0 3).reply? = some 3 ∧ (frame true 0 3).outcome = .applied ∧
      receive (asking.rxPolarity (.cPair 7)) (frame true 0 3).encode = .good (frame true 0 3)) ∧
    (waiting.half 7 .C).seg.synchronised = false ∧ (frame true 0 4).reply? = none ∧
    -- a leg with another lane that is not READY
    ((tweak 5 .C acceptedHalf (up.setLane 5 (doneLane .train (up.lane 5)))).half 5 .S).seg.state = .done ∧
    (up.lane 4).state ≠ .ready ∧ up.legOf 4 = some 1 ∧ up.legOf 5 = some 1 := by decide +kernel

theorem witness_PartnerRequestIsServedInDone :
    mixed.rx (.cPair 4) = ⟨true, true⟩ ∧ mixed.standing (.cPair 4) = some (4, .C) ∧ (mixed.lane 4).state = .ready ∧
      (mixed.lane 4).segmentLaw = true ∧ (mixed.half 4 .C).seg.state = .done ∧
      (mixed.half 4 .C).seg.partner = some (frame true 2 4).sessionNumber ∧
      receive (mixed.rxPolarity (.cPair 4)) (frame true 2 4).encode = .good (frame true 2 4) ∧
      (mixed.half 4 .C).resp.lastTag ≠ some (frame true 2 4).requestTag ∧
      (lastHandshake.lane 5).state = .train ∧ (lastHandshake.half 5 .S).seg.state = .done := by decide +kernel

/-- A frame of session 7. -/
def newSession : Frame := { frame false 0 4 with session := 7 }

theorem witness_PartnerRestartIsTaken :
    (carrying.rx (.cPair 4) = ⟨true, true⟩ ∧ carrying.standing (.cPair 4) = some (4, .C) ∧
      (carrying.half 4 .C).seg.state = .done ∧ (carrying.half 4 .C).seg.partner ≠ some newSession.sessionNumber ∧
      (carrying.half 4 .C).req.outstanding = none ∧ (carrying.lane 4).state = .carry ∧ carrying.legOf 4 = some 1 ∧
      receive (carrying.rxPolarity (.cPair 4)) newSession.encode = .good newSession) ∧
      (mixed.lane 4).state = .ready ∧ (mixed.half 4 .C).req.outstanding = none ∧
      (lastHandshake.lane 5).state = .train ∧ (lastHandshake.half 5 .S).seg.state = .done ∧
      (lastHandshake.half 5 .S).req.outstanding = none ∧ newSession.request = .none := by decide +kernel

theorem witness_LastReadyFrameBringsTheLegIntoCarry :
    lastHandshake.rx (.cPair 5) = ⟨true, true⟩ ∧ lastHandshake.standing (.cPair 5) = some (5, .C) ∧
      lastHandshake.legOf 5 = some 1 ∧ (lastHandshake.lane 5).state = .train ∧
      (lastHandshake.half 5 .C).seg.state = .exchange ∧ (lastHandshake.half 5 .S).seg.state = .done ∧
      (lastHandshake.half 5 .C).seg.ownReady = true ∧ (lastHandshake.half 5 .C).seg.synchronised = true ∧
      (lastHandshake.half 5 .C).req.outstanding = none ∧
      (lastHandshake.half 5 .C).seg.partner = some (frame true 0 4).sessionNumber ∧ (frame true 0 4).ready = true ∧
      (∀ j, j ≠ 5 → lastHandshake.legOf j = some 1 → (lastHandshake.lane j).state = .ready) ∧
      receive (lastHandshake.rxPolarity (.cPair 5)) (frame true 0 4).encode = .good (frame true 0 4) := by decide +kernel

/-- A synchronised side whose search is in a phase, at tap PRE and direction -1. -/
def inPhase (ph : Phase) : Half :=
  { acceptedHalf Half.reset with search := { Search.reset with phase := ph, tap := .pre, dir := .minus } }

/-- A search at the end of a pass: the +1 direction of POST2, closed by a BACK. -/
def lastTap (pass : Nat) (moved : Bool) : Half :=
  { inPhase .backing with search := { (inPhase .backing).search with
    tap := .post2, dir := .plus, pass := pass, passMoved := moved, reference := some 60 } }

theorem witness_AnswersAndReadingsDriveTheSearch :
    ((inPhase .trying).seg.synchronised = true ∧ (inPhase .opening).search.phase = .opening ∧
      (inPhase .trying).search.phase = .trying ∧ (inPhase .trying).search.dir = .minus ∧
      (inPhase .trying).search.tapMoved = false ∧ (inPhase .keeping).search.phase = .keeping ∧
      (inPhase .backing).search.phase = .backing ∧ (lastTap 3 true).search.dir = .plus ∧
      (lastTap 3 true).search.tap = .post2 ∧ (lastTap 3 true).search.passMoved = true ∧ (lastTap 3 true).search.pass < 4 ∧
      (lastTap 4 true).search.pass = 4 ∧ (lastTap 1 false).search.passMoved = false ∧
      (lastTap 4 true).search.reference = some 60 ∧ (lastTap 4 true).search.phase = .backing) ∧
    (inPhase .reference).seg.synchronised = true ∧ (inPhase .reference).search.phase = .reference ∧
      (inPhase .reference).search.unordered + 1 < 3 ∧ (lastTap 1 false).seg.synchronised = true ∧
      { (lastTap 1 false).search with phase := .measuring, unordered := 2 }.phase = .measuring ∧
      (lastTap 1 false).search.reference = some 60 ∧
      3 ≤ { (lastTap 1 false).search with phase := .measuring, unordered := 2 }.unordered + 1 := by decide

/-- Cable lane 7 with every timer of its C-segment running. -/
def timed (s : State) : State :=
  tweak 7 .C (fun h => { h with
    seg := { h.seg with tAcquire := some 60, tRelock := some 2, tTune := some 800 }
    req := { h.req with tReply := some 4 }
    search := { h.search with tSettle := some 1 } }) s

theorem witness_LaneTimersExpire :
    (((timed training).lane 7).state = .train ∧ ((timed training).half 7 .C).seg.state ≠ .idle ∧
      ((timed training).half 7 .C).seg.tAcquire ≠ none ∧ ((timed training).half 7 .C).seg.tTune ≠ none ∧
      ((timed training).half 7 .C).req.tReply ≠ none ∧ ((timed training).half 7 .C).seg.tRelock ≠ none ∧
      ((timed carrying).lane 7).state = .carry ∧ (timed carrying).legOf 7 = some 2 ∧
      ((timed carrying).half 7 .C).seg.tRelock ≠ none) ∧
    (((timed training).half 7 .C).search.tSettle ≠ none ∧ ((timed training).lane 7).segmentLaw = true ∧
      ((timed training).half 7 .C).scan.inFlight = none ∧ (timed training).locked 7 .C = true ∧
      (after (.lockLost (.cPair 7)) (timed training)).locked 7 .C = false ∧
      ((after (.lockLost (.cPair 7)) (timed training)).half 7 .C).search.tSettle ≠ none ∧
      ((tweak 7 .C (scanning .action 31 []) (timed training)).half 7 .C).scan.inFlight ≠ none) ∧
    ((after (.tAcquireExpiry 5 .C) up).lane 5).state = .wait ∧ ((after (.tAcquireExpiry 5 .C) up).lane 5).tQuiet ≠ none := by
  decide +kernel

theorem witness_WatchPeriodScansCarryingLanes :
    (watched 15).watchTimer ≠ none ∧ ((watched 15).lane 7).state = .carry ∧ ((watched 15).lane 6).state ≠ .carry ∧
      ((watched 15).half 7 .C).scan.inFlight ≠ none ∧ ((watched 15).half 7 .S).scan.inFlight = none ∧
      (watched 15).locked 7 .S = true ∧ (after (.lockLost (.sPair 2)) (watched 15)).locked 7 .S = false ∧
      ((after (.lockLost (.sPair 2)) (watched 15)).half 7 .S).scan.inFlight = none := by decide +kernel

/-- An ACTION scan on cable lane 7's C-receiver at an offset, with some edges ended. -/
def scanned (off : Nat) (edges : List Nat) : State := tweak 7 .C (scanning .action off edges) carrying

theorem witness_ScanWindowEndMovesTheScan :
    ((scanned 30 []).half 7 .C).scan.inFlight = some ⟨.action, 30, []⟩ ∧ (scanned 30 []).locked 7 .C = true ∧
      ((scanned 30 []).lane 7).segmentLaw = true ∧
      ((scanned 1 [1, 2, 3, 4]).half 7 .C).scan.inFlight = some ⟨.action, 1, [1, 2, 3, 4]⟩ ∧
      ((scanned 31 [1, 2, 3, 4, 5]).half 7 .C).scan.inFlight = some ⟨.action, 31, [1, 2, 3, 4, 5]⟩ ∧
      ((scanned 31 [1, 2, 3, 4, 5]).half 7 .C).scan.waiting = false := by decide +kernel

/-- The last window of a SEARCH scan in REFERENCE or MEASURING, against a reference of 60. -/
def searchEnds (ph : Phase) : State :=
  tweak 7 .C (fun h => { scanning .search 31 [1, 2, 3, 4, 5] h with
    search := { h.search with phase := ph, reference := some 60 } }) training

theorem witness_CompletedScansReachTheirEngine :
    ((tweak 7 .C (scanning .watch 31 [31, 31, 31, 31, 31]) (watched 2)).half 7 .C).scan.inFlight =
        some ⟨.watch, 31, [31, 31, 31, 31, 31]⟩ ∧
      (watched 2).locked 7 .C = true ∧ ((watched 2).half 7 .C).scan.waiting = false ∧
      ((watched 2).lane 7).state = .carry ∧ ((watched 2).half 7 .C).watch.baseline = some 83 ∧
      -- a non-alarm reading and an alarm reading
      83 < figureOfMerit [31, 31, 31, 31, 31, 31] + (watched 2).dDrop ∧
      figureOfMerit [1, 2, 3, 4, 5, 31] + (watched 2).dDrop ≤ 83 ∧
      ((searchEnds .reference).half 7 .C).scan.inFlight = some ⟨.search, 31, [1, 2, 3, 4, 5]⟩ ∧
      (searchEnds .reference).locked 7 .C = true ∧ ((searchEnds .reference).lane 7).state = .train ∧
      ((searchEnds .reference).half 7 .C).seg.state = .exchange ∧
      ((searchEnds .reference).half 7 .C).seg.synchronised = true ∧
      ((searchEnds .reference).half 7 .C).search.phase = .reference ∧
      ((searchEnds .measuring).half 7 .C).search.phase = .measuring ∧
      ((searchEnds .measuring).half 7 .C).search.reference = some 60 := by decide +kernel

/-- A search request that waits for the ACTION scan just completed starts in EXCHANGE and is discarded in DONE (R104, R107). -/
theorem test_scanWindowEnd_startsTheWaitingSearch :
    ((after (.scanWindowEnd 7 .C 0) (scanningSegment .action true)).half 7 .C).scan.inFlight = some ⟨.search, 1, []⟩ ∧
      ((after (.scanWindowEnd 7 .C 0) scanningDone).half 7 .C).scan.inFlight = none ∧
      (scanningSegment .action true).locked 7 .C = true := by decide +kernel

/-- A watch retrain request waiting at cable lane 7. -/
def requested (s : State) : State := s.setLane 7 { s.lane 7 with retrainRequested := true }

theorem witness_WatchRetrainIsTakenInCarry :
    ((requested carrying).lane 7).retrainRequested = true ∧ ((requested carrying).lane 7).state = .carry ∧
      (requested carrying).legOf 7 = some 2 ∧ ((requested up).lane 7).retrainRequested = true ∧
      ((requested up).lane 7).state ≠ .carry := by decide +kernel

/-- The part after the apply of "two applies", its cases waiting, and the same with cable lane 5 held by the switch host. -/
def applied : State := after (.applyProfile 0 resetArgs) beforeApply

theorem witness_ApplyCaseIsTaken :
    (applied.lane 4).cases = [⟨false, false⟩] ∧ (applied.lane 7).cases = [⟨true, true⟩] ∧
      (applied.lane 7).state = .carry ∧ applied.legOf 7 = some 2 ∧ (applied.lane 7).hold = ⟨false, false, false⟩ ∧
      ((after (.hold 0 (masked 0x08) 0) applied).lane 7).hold ≠ ⟨false, false, false⟩ ∧
      ((after (.hold 0 (masked 0x08) 0) applied).lane 7).cases = [⟨true, true⟩] ∧
      ((after (.hold 0 (masked 0x08) 0) applied).lane 7).state ≠ .carry := by decide +kernel

/-- A HOLD of cable lanes 4 and 5 handed to both. -/
def holdHanded (s : State) : State := after (.hold 0 (masked 0x03) 0x03) s

/-- The same operation out under the code `n + 2`. -/
def handedAs (n : Fin 9) : State :=
  (holdHanded carrying).setAction 0 fun x => { x with code := byte (n.val + 2) }

theorem witness_DeferredOperationsAreTaken :
    (actionReady carrying 0 1 ∧ actionReady carrying 0 2 ∧ actionReady carrying 0 3 ∧ actionReady carrying 0 4 ∧
      actionReady carrying 0 5 ∧ actionReady carrying 0 6 ∧ actionReady carrying 0 7 ∧ actionReady carrying 0 8 ∧
      actionReady carrying 0 9 ∧ actionReady carrying 0 10 ∧ names carrying 0 (masked 0x03) 0 5) ∧
    (holdHanded carrying).handedAt 0 0 = some ⟨0, 5⟩ ∧ ((holdHanded carrying).port 0).action.code = 2 ∧
      ((holdHanded carrying).lane 5).state = .carry ∧ (holdHanded carrying).legOf 5 = some 1 ∧
      (holdHanded up).handedAt 0 1 = some ⟨1, 4⟩ ∧ ((holdHanded up).lane 4).state = .train ∧
      -- every other code, and lanes in DOWN and OFF
      (∀ n : Fin 9, (handedAs n).handedAt 0 0 = some ⟨0, 5⟩ ∧ ((handedAs n).port 0).action.code = byte (n.val + 2)) ∧
      ((after (.hold 2 (masked 0x02) 0) (holdHanded carrying)).lane 5).state = .down ∧
      ((holdHanded carrying).setLane 5 ((carrying.lane 5).enterOff)).handedAt 0 0 = some ⟨0, 5⟩ := by decide +kernel

theorem witness_BusPartsBeginAndFillTheBuffer :
    (acknowledges State.reset 0 = false ∧ acknowledges carrying 2 = true ∧ (carrying.port 2).phase = .idle ∧
      (carrying.port 2).handed = [] ∧ acknowledges (writingAt 2 1 [(2, 70)] carrying) 2 = true ∧
      ((writingAt 2 1 [(2, 70)] carrying).port 2).phase.isWrite = true ∧
      ((writingAt 2 1 [(2, 70)] carrying).port 2).handed = [] ∧
      ((after (.busStartAddress 2 0x3A .write) carrying).port 2).phase = .pointerHigh ∧
      ((after (.busStartAddress 2 0x3A .write) carrying).port 2).buffer = ⟨none, []⟩ ∧
      ((after (.busStartAddress 2 0x3A .read) carrying).port 2).phase = .reading ∧
      ((after (.hostNack 2) (after (.readByteSent 2) (after (.busStartAddress 2 0x3A .read) carrying))).port 2).phase =
        .readEnded) ∧
    ((after (.busStartAddress 0 0x3A .write) carrying).port 0).phase = .pointerHigh ∧
      ((after (.pointerByte 0 0x0C) (after (.busStartAddress 0 0x3A .write) carrying)).port 0).phase = .pointerLow 0x0C ∧
      ((after (.pointerByte 0 0x3F) (after (.pointerByte 0 0x0C)
        (after (.busStartAddress 0 0x3A .write) carrying))).port 0).phase = .writing := by decide +kernel

/-- A read part at M2 whose pointer is at the SEARCH group of tuning record 0, refused to it. -/
def readingSearch : State := portAs 2 (fun x => { x with phase := .reading, pointer := 0x41D }) policed

theorem witness_ReadPartServesTheSnapshot :
    (readingSearch.port 2).phase = .reading ∧ (readingSearch.port 2).snapshot = none ∧
      resolve readingSearch 2 0x10 = some (.tuning 4) ∧
      mayRead readingSearch 2 (groupAt readingSearch 2 (.tuning 4) 0x1D) = false ∧ resolve readingSearch 2 0x0A = none ∧
      ((after (.readByteSent 2) readingSearch).port 2).phase = .reading ∧
      ((after (.readByteSent 2) readingSearch).port 2).snapshot ≠ none ∧
      ((after (.readByteSent 2) readingSearch).port 2).sentRefused = true ∧
      ((after (.hostNack 2) (after (.readByteSent 2) readingSearch)).port 2).phase = .readEnded := by decide +kernel

/-- A read part about to send its first byte at a place of a port's view. -/
def readingAt (p : PortId) (block off : Nat) (s : State) : State :=
  portAs p (fun x => { x with phase := .reading, snapshot := none, pointer := BitVec.ofNat 16 (64 * block + off) }) s

/-- Leg 1's blocks through M2 and M0: cable lane 4 is leg lane 0 and switch lane 1. -/
theorem witness_RecordsShowTheirFields :
    ((readingAt 2 8 0x10 policed).port 2).phase = .reading ∧ ((readingAt 2 8 0x10 policed).port 2).snapshot = none ∧
      ((readingAt 2 8 0x10 policed).port 2).pointer.toNat / 64 = 8 + (0 : Fin 8).val ∧
      (policed.current.legs.get 1).enabled = true ∧ (policed.wiring.legs.get 1)[0]? = some 4 ∧
      policed.inverse.get 1 = some 4 ∧ ((readingAt 0 9 0x2C policed).port 0).phase = .reading ∧
      ((readingAt 0 0x32 0x06 policed).port 0).pointer.toNat % 64 = 6 := by decide +kernel

theorem witness_TuningRecordsPackTheirFields :
    ((readingAt 2 0x10 0x3F policed).port 2).phase = .reading ∧
      ((readingAt 2 0x10 0x3F policed).port 2).pointer.toNat / 64 = 0x10 + (0 : Fin 8).val ∧
      ((readingAt 2 0x10 0x3F policed).port 2).pointer.toNat % 64 = 63 ∧ policed.policy.read.getLsbD 13 = false ∧
      policed.policy.read.getLsbD 10 = true ∧ ((readingAt 0 0x11 0 policed).port 0).snapshot = none ∧
      policed.inverse.get 1 = some 4 := by decide +kernel

/-- NEAR is S at M0 and C at a leg port (R171): own session of cable lane 4's segments, S at 1 and C at 9; and the part state
RUNNING of the part block (12.3). -/
theorem test_readByteSent_near_is_the_ports_side :
    let s := tweak 4 .C (fun h => { h with seg := { h.seg with own := 9 } }) carrying
    ((after (.readByteSent 0) (readingAt 0 9 0x12 s)).port 0).line = .data 1 ∧
      ((after (.readByteSent 2) (readingAt 2 8 0x12 s)).port 2).line = .data 9 ∧
      ((after (.readByteSent 0) (readingAt 0 0 0x15 s)).port 0).line = .data 1 := by decide +kernel

/-- Unmapped blocks at M2 and M0; read-only groups and empty offsets at both, from a part block to a tuning record. -/
theorem witness_WritesWithoutAFieldAreDiscarded :
    (∀ x ∈ [(0x0A, 63), (0x0F, 0), (2, 0), (0x20, 5), (0x33, 0), (0, 0x14), (0, 0x1B), (1, 1), (1, 9), (1, 63), (8, 4),
        (9, 0x2C), (0x11, 0x3F), (0x30, 8), (0x30, 0x17), (0x31, 2), (0x32, 3)],
      ((writingAt 2 x.1 [(x.2, 1)] policed).port 2).phase = .writing ∧
        ((writingAt 2 x.1 [(x.2, 1)] policed).port 2).handed = [] ∧
        ((writingAt 2 x.1 [(x.2, 1)] policed).port 2).buffer = ⟨some x.1, [(x.2, 1)]⟩) ∧
    resolve (writingAt 2 0x0A [(63, 1)] policed) 2 0x0A = none ∧ resolve (writingAt 2 2 [(0, 1)] policed) 2 2 = none ∧
    (policed.current.legs.get 1).enabled = true ∧ policed.wiring.laneCount 1 = 2 ∧ (2 : PortId) = legPort 1 ∧
    policed.inverse.get 3 = none ∧ policed.inverse.get 7 ≠ none ∧
    (∀ x ∈ [(0x0B, 0), (5, 0), (0, 0x1C), (4, 0x0A), (0x20, 0x19), (0x21, 0x1F), (0x22, 0x0F), (0x0F, 0x0F),
        (0x17, 0x1B), (0x30, 7)],
      ((writingAt 0 x.1 [(x.2, 1)] policed).port 0).phase = .writing ∧
        ((writingAt 0 x.1 [(x.2, 1)] policed).port 0).handed = []) := by decide +kernel

/-- A write of one byte of leg 1's THRESHOLD group, which keeps the other (R167). -/
theorem witness_Threshold_oneByte :
    ((writingAt 0 2 [(3, 0)] carrying).port 0).phase = .writing ∧ ((writingAt 0 2 [(3, 0)] carrying).port 0).handed = [] ∧
      ((writingAt 0 2 [(3, 0)] carrying).port 0).buffer = ⟨some (1 + (1 : LegId).val), (3, 0) :: []⟩ ∧
      ((writingAt 2 1 [(2, 255)] carrying).port 2).buffer = ⟨some 1, (2, 255) :: []⟩ := by decide +kernel

/-- A write of leg 1's THRESHOLD group at a port, with its busy mask closed and its write entry open or refused. -/
def thresholdAt (p : PortId) (block : Nat) (closed allowed : Bool) : State :=
  writingAt p block [(2, 187), (3, 1)]
    { carrying with
      busy := carrying.busy.set 1 ⟨closed, false, false, false⟩
      policy := { carrying.policy with write := if allowed then 2 else 0 } }

theorem witness_ThresholdWriteIsJudgedAndStored :
    ((thresholdAt 0 2 false true).port 0).phase = .writing ∧ ((thresholdAt 0 2 false true).port 0).handed = [] ∧
      ((thresholdAt 0 2 false true).port 0).buffer = ⟨some 2, [(2, 187), (3, 1)]⟩ ∧
      ((thresholdAt 2 1 false true).port 2).buffer = ⟨some 1, [(2, 187), (3, 1)]⟩ ∧
      ((thresholdAt 2 1 false true).busy.get 1).leg = false ∧
      (thresholdAt 2 1 false true).policy.write.getLsbD 1 = true ∧
      ((thresholdAt 2 1 true true).busy.get 1).leg = true ∧ ((thresholdAt 2 1 false false).busy.get 1).leg = false ∧
      (thresholdAt 2 1 false false).policy.write.getLsbD 1 = false := by decide +kernel

theorem witness_RegisterWritesStoreTheirFields :
    ∀ x ∈ [(0x20, 23), (0x21, 19), (0x21, 51), (0x22, 13), (0x22, 16), (2, 9), (0, 24), (0, 27), (2, 4), (2, 8)],
      ((writingAt 0 x.1 [(x.2, 7)] carrying).port 0).phase = .writing ∧
      ((writingAt 0 x.1 [(x.2, 7)] carrying).port 0).handed = [] ∧
      ((writingAt 0 x.1 [(x.2, 7)] carrying).port 0).buffer = ⟨some x.1, [(x.2, 7)]⟩ ∧
      (writingAt 0 x.1 [(x.2, 7)] carrying).policyLaw ∧
      ((writingAt 2 1 [(x.2, 7)] carrying).busy.get 1).leg = false ∧
      (writingAt 2 1 [(x.2, 7)] carrying).policy.write.getLsbD 2 = true ∧
      (writingAt 2 1 [(x.2, 7)] carrying).policy.write.getLsbD 3 = true := by decide +kernel

theorem witness_CountsAreZeroedOrRefusedWhole :
    acknowledges carrying 2 = true ∧ (carrying.port 2).handed = [] ∧ carrying.policy.write.getLsbD 17 = true ∧
      acknowledges carrying 0 = true ∧ (carrying.port 0).handed = [] ∧
      ¬ (some (0 : Byte) = none ∧ (none : Option Byte) = none ∧ (some (1 : Byte)) = none) := by decide +kernel

theorem witness_BitmapAndMaskAreWritten :
    acknowledges carrying 2 = true ∧ (carrying.port 2).handed = [] ∧ carrying.bitmapLaw ∧
      carrying.policy.write.getLsbD 18 = true ∧ carrying.policy.write.getLsbD 19 = true := by decide +kernel

/-- Leg 1's host with RETRAIN refused it by the policy, its ACTION busy flag set. -/
def actionClosed : State :=
  { carrying with
    busy := carrying.busy.set 1 ⟨false, false, false, true⟩
    policy := { carrying.policy with actions := carrying.policy.actions &&& ~~~1#14 } }

/-- The request fields refused to the leg hosts. -/
def requestClosed : State := { carrying with policy := { carrying.policy with write := 0 } }

/-- A tap code that names no tap and a preset code that names no preset. -/
def nameless : ActionArgs := { masked 0x03 with tap := 3, preset := 4 }

theorem witness_ActionsThatFailATestAreRefusedWhole :
    issuedAction (.actionReserved 2 0 (masked 0x03)) = some (2, 0, masked 0x03) ∧
      issuedAction (.actionReserved 0 15 (masked 0x03)) = some (0, 15, masked 0x03) ∧
      acknowledges actionClosed 2 = true ∧ (actionClosed.port 2).handed = [] ∧
      actionClosed.policy.write.getLsbD 14 = true ∧
      -- refused by the policy, by the fixed entries, and under the busy flag
      issuedAction (.retrain 2 (masked 0x03) 0) = some (2, 1, masked 0x03) ∧
      actionClosed.policy.actions.getLsbD 0 = false ∧ actionClosed.policy.actions.getLsbD 1 = true ∧
      issuedAction (.applyProfile 2 (masked 0x03)) = some (2, 13, masked 0x03) ∧
      issuedAction (.softReset 2 (masked 0x03)) = some (2, 14, masked 0x03) ∧
      issuedAction (.hold 2 (masked 0x03) 0) = some (2, 2, masked 0x03) ∧
      (2 : PortId) = legPort 1 ∧ (actionClosed.busy.get 1).action = true := by decide +kernel

/-- The argument test, and a port whose request fields are closed. -/
theorem witness_ActionsThatFailATest_arguments :
    acknowledges carrying 0 = true ∧ (carrying.port 0).handed = [] ∧
      issuedAction (.step 0 nameless 0) = some (0, 8, nameless) ∧ nameless.tap.val = 3 ∧
      issuedAction (.preset 0 nameless 0) = some (0, 9, nameless) ∧ 4 ≤ nameless.preset.val ∧
      acknowledges requestClosed 2 = true ∧ requestClosed.policy.write.getLsbD 14 = false := by decide +kernel

/-- A write of the code and the mask of a HOLD, the other request fields standing, with and without an operation out, and
one of the mask alone at a port with the request fields open and closed. -/
theorem witness_RequestWritesTakeTheAction :
    ((writingAt 2 0x30 [(0, 2), (2, 1)] carrying).port 2).phase = .writing ∧
      ((writingAt 2 0x30 [(0, 2), (2, 1)] carrying).port 2).buffer = ⟨some 0x30, (0, 2) :: [(2, 1)]⟩ ∧
      acknowledges (writingAt 2 0x30 [(0, 2), (2, 1)] carrying) 2 = true ∧
      issuedAction (.hold 2 (masked 0x01) 0x01) = some (2, 2, masked 0x01) ∧
      ((writingAt 2 0x30 [(0, 2), (2, 1)] carrying).port 2).action.args = resetArgs ∧
      ((writingAt 2 0x30 [(0, 2), (2, 1)] retrainWritten).port 2).handed ≠ [] ∧
      ((writingAt 2 0x30 [(5, 15)] carrying).port 2).handed = [] ∧
      ((writingAt 2 0x30 [(5, 15)] requestClosed).port 2).phase = .writing ∧
      requestClosed.policy.write.getLsbD 14 = false := by decide +kernel

/-- A write of the code byte alone takes the action with the fields as they stand (R144). -/
theorem test_registerWrite_takesAction :
    let s := portAs 2 (fun x => { x with action := { x.action with args := masked 0x01 } }) carrying
    ((after (.registerWrite 2 0) (writingAt 2 0x30 [(0, 2)] s)).lane 4).hold = ⟨false, true, false⟩ := by decide +kernel

/-- Leg 1 with cable lane 4 held and cable lane 5 in READY, through the full view and leg view 1. -/
theorem witness_RetrainTrainsTheNamedLanes :
    actionReady held 0 1 ∧ viewOnce held 0 ∧ held.carryLaw ∧ names held 0 (masked 0x86) 1 4 ∧
      (held.lane 4).state = .down ∧ names held 0 (masked 0x86) 2 7 ∧ (held.lane 7).state = .carry ∧
      actionReady held 2 1 ∧ viewOnce held 2 ∧ names held 2 (masked 0x02) 1 5 ∧ (held.lane 5).state = .ready := by
  decide +kernel

/-- A state no run reaches: a view names a lane that is OFF. -/
def offNamed : State := carrying.setLane 4 ((carrying.lane 4).enterOff)

theorem witness_HoldAndReleaseMoveTheNamedLanes :
    viewOnce held 0 ∧ actionReady held 0 2 ∧ held.carryLaw ∧ names held 0 (masked 0x06) 2 7 ∧
      (held.lane 7).state = .carry ∧ (held.lane 4).state = .down ∧ viewOnce held 2 ∧ actionReady held 2 3 ∧
      names held 2 (masked 0x03) 0 4 ∧ viewOnce offNamed 0 ∧ actionReady offNamed 0 3 ∧
      names offNamed 0 (masked 0x02) 1 4 ∧ (offNamed.lane 4).state = .off := by decide +kernel

theorem witness_MeasureStartsScans :
    actionReady (watched 15) 0 4 ∧ viewOnce (watched 15) 0 ∧ names (watched 15) 0 (masked 0x04) 2 7 ∧
      sideOf 0 .far = .C ∧ sideOf 0 .near = .S ∧ ((watched 15).half 7 .C).scan.inFlight ≠ none ∧
      ((watched 15).half 7 .S).scan.inFlight = none ∧ (watched 15).locked 7 .S = true ∧
      (after (.lockLost (.sPair 2)) (watched 15)).locked 7 .S = false ∧ (held.lane 4).state = .down ∧
      names held 0 (masked 0x02) 1 4 ∧ names offNamed 0 (masked 0x02) 1 4 ∧ actionReady offNamed 0 4 := by decide +kernel

/-- Leg port M3 may issue no FAR-side setting action. -/
def farClosed : State := { training with policy := { training.policy with far := false } }

theorem witness_SettingActionsReachTheTransmitter :
    viewOnce training 0 ∧ actionReady training 0 5 ∧ actionReady training 0 6 ∧ actionReady training 0 7 ∧
      actionReady training 0 8 ∧ actionReady training 0 9 ∧ tapOfCode ({ farArgs with tap := 2 }).tap.val = some .post2 ∧
      ({ farArgs with preset := 3 }).preset.val = (3 : Fin 4).val ∧ names training 0 farArgs 2 7 ∧
      (training.half 7 .C).seg.state = .exchange ∧ (training.half 7 .S).seg.state ≠ .exchange ∧ viewOnce farClosed 3 ∧
      actionReady farClosed 3 5 ∧ farClosed.policy.far = false ∧ names farClosed 3 { farArgs with mask := 0x01 } 0 7 := by
  decide +kernel

theorem witness_ClearCountersZeroesTheNamedLanes :
    actionReady held 2 10 ∧ viewOnce held 2 ∧ names held 2 (masked 0x01) 0 4 ∧ (held.lane 4).state ≠ .off ∧
      actionReady offNamed 0 10 ∧ viewOnce offNamed 0 ∧ names offNamed 0 (masked 0x02) 1 4 ∧
      (offNamed.lane 4).state = .off := by decide +kernel

theorem witness_FreezeAndThawSetTheWatch :
    actionReady carrying 2 11 ∧ actionReady carrying 0 12 ∧ carrying.freeze = false ∧
      actionReady (after (.freeze 0 resetArgs) carrying) 2 12 ∧ (after (.freeze 0 resetArgs) carrying).freeze = true := by
  decide +kernel

/-- The part with a pending profile that enables leg 3, which is absent. -/
def badPending : State :=
  { carrying with pendingProfile := { profileA with legs := profileA.legs.set 3 ⟨true, 0, 0, .linear⟩ } }

theorem witness_ApplyProfileTakesOrRefusesWhole :
    actionReady faulted 0 13 ∧ faulted.part = .imageFault ∧ faulted.routeLaw ∧ actionReady beforeApply 0 13 ∧
      beforeApply.part = .running ∧ beforeApply.routeLaw ∧
      validate beforeApply.wiring beforeApply.pendingProfile = none ∧ actionReady badPending 0 13 ∧
      badPending.part = .running ∧ badPending.routeLaw ∧
      validate badPending.wiring badPending.pendingProfile = some (.absentLeg, 3) := by decide +kernel

theorem witness_SoftResetRestartsTheLanes :
    actionReady held 0 14 ∧ held.part = .running ∧ (held.lane 4).hold ≠ ⟨false, false, false⟩ ∧
      (held.lane 5).hold = ⟨false, false, false⟩ ∧ (held.lane 6).state = .off ∧ actionReady faulted 0 14 ∧
      faulted.part = .imageFault := by decide +kernel

theorem witness_SettingOperationsFollowTheirRules :
    (List.replicate 8 (presetSetting 1)).length = 8 ∧ ((TxUnit.load 3).trial .pre .minus).2 = .applied ∧
      (TxUnit.load 3).stack = [] ∧ (TxUnit.load 3).save.1.stack = presetSetting 3 :: [] ∧
      ((TxUnit.load 0).step .pre .plus).2 = .atLimit := by decide

theorem witness_ValidProfileRoutesOneToOne :
    wiringValid exampleWiring = true ∧ validate (installWiring exampleWiring) profileA = none ∧
      ((installWiring exampleWiring).legs.get 0).contains 3 = true ∧ (profileA.legs.get 0).enabled = true := by
  decide +kernel

/-- The part carrying traffic, with the assertion of leg 1's reset line at the front of the queue. -/
def queued : State := { carrying with pending := [.legResetAsserted 1] }

theorem witness_step : ∃ t, step queued = .next t := ⟨_, rfl⟩

/-- A RETRAIN through leg 1's port with an operation still out, about to take its turn. -/
def handingOver : State := { retrainWritten with pending := [.actionLaneOperation 2 0] }

/-- The hypotheses of every statement that a step keeps a law. -/
theorem witness_StepsKeepTheLaws :
    (queued.settingLaw ∧ queued.laneLaw ∧ queued.segmentLaw ∧ queued.legLaw ∧ queued.bitmapLaw) ∧
      queued.counterLaw ∧ queued.configLaw ∧ queued.bufferLaw ∧ queued.policyLaw ∧ queued.readingLaw :=
  ⟨by decide +kernel, by decide +kernel⟩

/-- The part coming up, its segments in DETECT, with a frame at the front of the queue. -/
def detecting : State := { up with pending := [.frameReceived (.sPair 1) (frame true 0 4).encode] }

theorem witness_StepsKeepTheSegmentLaw :
    detecting.segmentLaw ∧ detecting.detectLaw ∧ (detecting.half 4 .S).seg.state = .detect := by decide +kernel

theorem witness_StepsKeepTheRouteMapLaw :
    handingOver.legLaw ∧ handingOver.mapLaw ∧ handingOver.handedLaw ∧ (handingOver.port (legPort 1)).handed ≠ [] ∧
      (queued.legLaw ∧ queued.mapLaw) ∧ (queued.route.get 4).switchLane = some 1 ∧ queued.legOf 4 = some 1 ∧
      (queued.current.legs.get 1).enabled = true := by decide +kernel

theorem witness_LegHostReachesOnlyItsLeg :
    commandPort (.retrain 2 (masked 0x01) 0x01) = some (legPort 1) ∧ carrying.wiringLaw ∧
      commandPort (.actionLaneOperation 2 0) = some (legPort 1) ∧ retrainWritten.wiringLaw ∧
      (∀ op ∈ (retrainWritten.port (legPort 1)).handed, retrainWritten.legOf op.lane = some 1) := by decide +kernel

theorem witness_LaneEventsMarkWhatTheyChange :
    carrying.bitmapLaw ∧ (∃ t, exec (.legResetAsserted 1) carrying = .next t) ∧ lineHeld.bitmapLaw ∧
      (lineHeld.port (legPort 1)).handed = [] ∧ (∃ t, exec (.legResetReleased 1) lineHeld = .next t) ∧
      retrainWritten.bitmapLaw ∧ (∃ t, exec (.actionLaneOperation 2 0) retrainWritten = .next t) ∧
      ∃ t, exec (.hostNack 2) readingSearch = .next t :=
  ⟨by decide +kernel, ⟨_, rfl⟩, by decide +kernel, by decide +kernel, ⟨_, rfl⟩, by decide +kernel, ⟨_, rfl⟩, _, rfl⟩

theorem witness_PortCommandsMarkWhatTheyChange :
    carrying.bitmapLaw ∧ (carrying.port 2).handed = [] ∧ (∃ t, exec (.countsZero 2 none none (some 0)) carrying = .next t) ∧
      (writingAt 0 2 [(4, 0)] carrying).bitmapLaw ∧ ((writingAt 0 2 [(4, 0)] carrying).port 0).phase.isWrite = true ∧
      ((writingAt 0 2 [(4, 0)] carrying).port 0).buffer.block ≠ some 0x30 ∧
      issuedAction (.applyProfile 0 resetArgs) = some (0, 13, resetArgs) ∧ beforeApply.bitmapLaw ∧
      (beforeApply.port 0).handed = [] ∧ actionReady beforeApply 0 13 ∧ beforeApply.part = .running ∧
      validate beforeApply.wiring beforeApply.pendingProfile = none :=
  ⟨by decide +kernel, by decide +kernel, ⟨_, rfl⟩, by decide +kernel⟩

theorem witness_PortCommands_operationOut :
    (retrainWritten.port 2).handed ≠ [] ∧ acknowledges retrainWritten 2 = true ∧
      issuedAction (.hold 2 (masked 0x01) 0) = some (2, 2, masked 0x01) ∧
      ((writingAt 2 1 [(2, 70)] retrainWritten).port 2).phase.isWrite = true ∧
      ((writingAt 2 1 [(2, 70)] retrainWritten).port 2).buffer.block ≠ none ∧
      ((writingAt 2 1 [(2, 70)] retrainWritten).port 2).handed ≠ [] := by decide +kernel

theorem witness_TransmittersFollowTheLaneState :
    (carrying.lane 4).state = .carry ∧ (carrying.half 4 .S).seg.tRelock = none ∧ (carrying.lane 4).sPair ≠ none ∧
      (up.lane 6).state = .off ∧ (mixed.lane 4).state = .ready ∧ (mixed.half 4 .S).seg.state ≠ .idle ∧
      (mixed.lane 4).sPair ≠ none ∧ (applied.lane 7).state = .carry ∧ (applied.lane 7).sPair = none ∧
      ((timed carrying).half 7 .C).seg.tRelock ≠ none ∧ (up.half 4 .C).seg.state = .detect ∧
      (up.half 4 .C).detectLaw = true ∧ (asking.half 7 .C).req.outstanding = some (.preset 1, 3) := by decide +kernel

end Sys2Proof.Tests
end

section
/-! SUPPORT. The state right after reset: every law that the step statements carry. -/

namespace Sys2Proof.Machine

/-- No flag stands at a port right after reset (R182). -/
theorem reset_bitmapLaw : State.reset.bitmapLaw := by
  intro p g h
  have : (State.reset.port p).bitmap = 0 := congrArg Port.bitmap (Tab.get_fill Port.reset p)
  rw [this] at h
  simp at h

/-- No operation is out at a port right after reset, which is what the law of handed operations asks in LOADING. -/
theorem reset_handedLaw : State.reset.handedLaw := by
  have out : ∀ p, (State.reset.port p).handed = [] := fun p => congrArg Port.handed (Tab.get_fill Port.reset p)
  exact ⟨fun k op h => absurd (out (legPort k) ▸ h) List.not_mem_nil, fun _ => out⟩

/-- Settles O3: each law is a closed fact about the eight lanes, four legs or five ports of the state right after reset. -/
theorem lawsHoldAtReset : Obligations.LawsHoldAtReset := by
  have sides : State.reset.settingLaw ∧ State.reset.detectLaw ∧ State.reset.readingLaw := by decide +kernel
  have lanes : State.reset.laneLaw ∧ State.reset.segmentLaw ∧ State.reset.legLaw := by decide +kernel
  have ranges : State.reset.bufferLaw ∧ State.reset.counterLaw ∧ State.reset.configLaw ∧ State.reset.policyLaw := by
    decide +kernel
  have map : State.reset.wiringLaw ∧ State.reset.mapLaw := by decide +kernel
  obtain ⟨setting, detect, reading⟩ := sides
  obtain ⟨lane, segment, leg⟩ := lanes
  obtain ⟨buffer, counter, config, policy⟩ := ranges
  exact ⟨setting, lane, segment, detect, leg, reset_bitmapLaw, buffer, counter, config, policy, reading, map.1, map.2,
    reset_handedLaw⟩

end Sys2Proof.Machine
end

section
/-! SUPPORT. What a step can do, said once: every command's effect is a chain of a few kinds of change, each with the
condition under which the model makes it. A law that each kind keeps is kept by every step. -/

namespace Sys2Proof.Machine

/-! ## The kinds of change -/

/-- What an event or an action rewrites on one side of a lane without the Lane Engine taking part. -/
inductive SideChange (ctx : Ctx) (l : Lane) (h : Half) : Half → Prop
  | startRelock : SideChange ctx l h h.startRelock
  | stopRelock : SideChange ctx l h h.stopRelock
  | stopAcquire : SideChange ctx l h h.stopAcquire
  | stopTune : SideChange ctx l h h.stopTune
  | stopReply : SideChange ctx l h h.stopReply
  | badFrame : SideChange ctx l h h.countBadFrame
  | suspect : l.state ≠ .carry → SideChange ctx l h h.suspectPolarity
  | setting (a : Action) (args : ActionArgs) (op : TxUnit → TxUnit × ReplyOutcome) :
      settingOp a args = some op → l.state ≠ .off → SideChange ctx l h { h with tx := (op h.tx).1 }
  | measure : l.state ≠ .off → l.state ≠ .down → h.scan.inFlight = none →
      SideChange ctx l h (h.startScan ctx .action).half

/-- The events on one side of a lane whose outcome the lane takes (`State.applyOut`). -/
inductive SideEvent (ctx : Ctx) (l : Lane) (h : Half) : Out → Prop
  | lockLost : SideEvent ctx l h (h.scanLosesLock ctx)
  | frame (f : Frame) : h.seg.state ≠ .idle → l.state ≠ .carry → SideEvent ctx l h (h.takeFrame ctx f)
  | settled : h.search.tSettle ≠ none → SideEvent ctx l h (h.stopSettle.requestSearchScan ctx)
  | watched : l.state = .carry → SideEvent ctx l h (h.requestWatchScan ctx)
  | window (n : Nat) : h.scan.inFlight ≠ none → SideEvent ctx l h (h.windowEnd ctx n)

/-- The rewritings of a whole lane to which the Leg Engine may respond (`State.moveLane`). -/
inductive LaneMove (s : State) (i : LaneId) : (Lane → Lane) → Prop
  | drop : (s.lane i).state = .carry →
      LaneMove s i fun l => { l.trainFresh (s.legConfig i) with drops := satInc counterMax l.drops }
  | quiet : (s.lane i).state = .wait → LaneMove s i fun l => l.trainFresh (s.legConfig i)
  | watchRetrain : (s.lane i).state = .carry → LaneMove s i fun l => l.watchRetrain (s.legConfig i)
  | applyCase : (s.lane i).cases ≠ [] →
      LaneMove s i fun l => l.takeCase (s.legConfig i) (s.route.get i).switchLane
  | retrain : (s.lane i).state ≠ .off → (s.lane i).state ≠ .down →
      LaneMove s i fun l => Lane.trainFresh (s.legConfig i) { l with fc := 0 }
  | hold (p : PortId) : (s.lane i).state ≠ .off → LaneMove s i fun l => l.addHold (l.hold.withMember p true)
  | release (p : PortId) : (s.lane i).state ≠ .off →
      LaneMove s i fun l => Lane.goOn (s.legConfig i) { l with hold := l.hold.withMember p false }

/-- A count of a port status stays below the larger of its old value and 255 (R180). -/
def PortStatus.within (old new : PortStatus) : Prop :=
  new.refused ≤ max statusMax old.refused ∧ new.busy ≤ max statusMax old.busy ∧
    new.unmapped ≤ max statusMax old.unmapped

/-- Port `p` becomes `x`: its buffer is kept, emptied or takes a byte; its counts stay in range; an operation newly handed
out is one of the lane that the port's view shows at the operation's mask bit (R146, R166, R180). -/
structure PortChange (s : State) (p : PortId) (x : Port) : Prop where
  buffer : x.buffer = (s.port p).buffer ∨ x.buffer = HoldingBuffer.empty ∨
    ∃ ptr b, x.buffer = (s.port p).buffer.put ptr b
  status : (s.port p).status.within x.status
  handed : ∀ op ∈ x.handed, op ∈ (s.port p).handed ∨ viewLane s p op.bit = some op.lane

/-- Configuration fields are rewritten, within their ranges. -/
structure ConfigChange (s t : State) : Prop where
  frame : t = { s with
    hysteresis := t.hysteresis, pWatch := t.pWatch, dDrop := t.dDrop, kAlarm := t.kAlarm,
    pendingProfile := t.pendingProfile, policy := t.policy, legs := t.legs, busy := t.busy }
  config : s.configLaw → t.configLaw
  policy : s.policyLaw → t.policyLaw

/-- The assertion of leg `k`'s reset line, before the Change Tracker (R53). -/
def State.lineAsserted (s : State) (k : LegId) : State :=
  { ({ s with legLines := s.legLines.set k true }.mapLeg k fun _ l => l.assertLine) with
    legState := s.legState.modify k fun st => if st = .live then .forming else st }

/-- The release of leg `k`'s reset line at the lanes, before the Change Tracker (R53). -/
def State.lineReleased (s : State) (k : LegId) : State :=
  { s with legLines := s.legLines.set k false }.mapLeg k fun i l => l.releaseLine (s.legConfig i)

/-- One change of the part. -/
inductive Change (s : State) : State → Prop
  | lines (line running : Bool) : Change s { s with switchLine := line, loadRunning := running }
  | blocks (line : Bool) (legLines : Tab 4 Bool) (running : Bool) :
      Change s (State.resetBlocks { s with switchLine := line, legLines := legLines } running)
  | load (img : FactoryImage) : s.part = .loading → imageCause img = .none →
      Change s (State.loadGood { s with store := img } img)
  | loadFails (img : FactoryImage) (cause : FaultCause) : Change s (State.loadBad { s with store := img } img cause)
  | receiver (r : Receiver) (x : RxLine) : Change s (s.setRx r x)
  | lineAsserted (k : LegId) : Change s (s.lineAsserted k)
  | lineReleased (k : LegId) : Change s (s.lineReleased k)
  | watch (freeze : Bool) (timer : Timer) : Change s { s with freeze := freeze, watchTimer := timer }
  | side (i : LaneId) (d : Side) (h : Half) : SideChange (s.ctx i d) (s.lane i) (s.half i d) h →
      Change s (s.setLane i ((s.lane i).setHalf d h))
  | event (i : LaneId) (d : Side) (o : Out) : SideEvent (s.ctx i d) (s.lane i) (s.half i d) o →
      Change s (s.applyOut i d o)
  | fail (i : LaneId) (d : Side) (r : FailReason) : Change s (s.failSegment i d r)
  | dropRequest (i : LaneId) : Change s (s.setLane i { s.lane i with retrainRequested := false })
  | clear (i : LaneId) : Change s (s.setLane i (s.lane i).clearCounters)
  | move (i : LaneId) (f : Lane → Lane) : LaneMove s i f → Change s (s.moveLane i f)
  | port (p : PortId) (x : Port) : PortChange s p x → Change s (s.setPort p x)
  | track (before : State) (own : Option (PortId × State)) : Change s (track before own s)
  | config (t : State) : ConfigChange s t → Change s t
  | apply : Change s s.apply.1
  | softReset : s.part = .running → Change s s.softReset.1

/-- A chain of changes. -/
abbrev Changes (s t : State) : Prop := Relation.ReflTransGen Change s t

theorem Change.chain {s t : State} (h : Change s t) : Changes s t := .single h

/-- A property that every change keeps is kept by a chain of changes. -/
theorem Changes.keep {P : State → Prop} (hP : ∀ s t, P s → Change s t → P t) {s t : State} (h : Changes s t)
    (hs : P s) : P t := by
  induction h with
  | refl => exact hs
  | tail _ hc ih => exact hP _ _ ih hc

theorem Changes.foldl {α : Type} (f : State → α → State) (h : ∀ s a, Changes s (f s a)) (xs : List α) (s : State) :
    Changes s (xs.foldl f s) := by
  induction xs generalizing s with
  | nil => exact .refl
  | cons x xs ih => exact (h s x).trans (ih _)

/-- The change bitmaps of an event are marked after its effect. -/
theorem Changes.tracked {s t : State} (h : Changes s t) (b : State) (o : Option (PortId × State)) :
    Changes s (track b o t) := h.tail (.track b o)

theorem Changes.engineEvent {s t : State} (h : Changes s t) (b : State) : Changes s (engineEvent b t) := h.tracked b none

/-! ## Lanes and sides -/

theorem drop_changes {s : State} {i : LaneId} (h : (s.lane i).state = .carry) : Changes s (s.drop i) :=
  Change.chain (.move i _ (.drop h))

theorem lineLoss_changes (s : State) (i : LaneId) (d : Side) : Changes s (s.lineLoss i d) := by
  unfold State.lineLoss
  split
  · next h => exact drop_changes h
  · exact Change.chain (.fail i d _)

theorem scanLosesLock_changes (s : State) (i : LaneId) (d : Side) : Changes s (s.scanLosesLock i d) :=
  Change.chain (.event i d _ .lockLost)

theorem modifyHalf_changes {s : State} {i : LaneId} {d : Side} {f : Half → Half}
    (h : SideChange (s.ctx i d) (s.lane i) (s.half i d) (f (s.half i d))) : Changes s (s.modifyHalf i d f) :=
  Change.chain (.side i d _ h)

theorem segmentLosesSignal_changes (s : State) (i : LaneId) (d : Side) : Changes s (s.segmentLosesSignal i d) := by
  unfold State.segmentLosesSignal
  dsimp only
  split
  · exact (lineLoss_changes s i d).trans (scanLosesLock_changes _ i d)
  · exact scanLosesLock_changes s i d

theorem segmentLosesLock_changes (s : State) (i : LaneId) (d : Side) : Changes s (s.segmentLosesLock i d) :=
  (Change.chain (.side i d _ .startRelock)).trans (scanLosesLock_changes _ i d)

/-- What a receiver found, at a segment that is not IDLE (R81, R82, R84). -/
theorem takeReception_changes {s : State} {i : LaneId} {d : Side} (x : Reception)
    (h : ((s.lane i).half d).seg.state ≠ .idle) : Changes s (s.takeReception i d x) := by
  cases x with
  | good f =>
    show Changes s (s.goodFrame i d f)
    unfold State.goodFrame
    dsimp only
    split
    · next hc =>
      split
      · exact .refl
      · exact drop_changes hc
    · next hc => exact Change.chain (.event i d _ (.frame f h hc))
  | badCheck => exact Change.chain (.side i d _ .badFrame)
  | inverted =>
    show Changes s (if (s.lane i).state = .carry then s else _)
    split
    · exact .refl
    · next hc => exact Change.chain (.side i d _ (.suspect hc))
  | noMarker => exact .refl

theorem watchLane_changes (s : State) (i : LaneId) : Changes s (s.watchLane i) := by
  have one : ∀ (s : State) (d : Side), Changes s (s.watchReceiver i d) := by
    intro s d
    unfold State.watchReceiver
    split
    · next hc => exact Change.chain (.event i d _ (.watched hc))
    · exact .refl
  exact (one s .S).trans (one _ .C)

/-! ## Actions -/

theorem settingApply_changes {s : State} {p : PortId} {i : LaneId} {v : ViewSide} {a : Action} {args : ActionArgs}
    {op : TxUnit → TxUnit × ReplyOutcome} (ha : settingOp a args = some op) (h : (s.lane i).state ≠ .off) :
    Changes s (settingApply s p i v op).1 :=
  Change.chain (.side i (sideOf p v) _ (.setting a args op ha h))

theorem settingLane_changes {s : State} {p : PortId} {i : LaneId} {v : ViewSide} {a : Action} {args : ActionArgs}
    {op : TxUnit → TxUnit × ReplyOutcome} (ha : settingOp a args = some op) :
    Changes s (settingLane s p i v op).1 := by
  unfold settingLane
  split
  · exact .refl
  · next hn =>
    refine settingApply_changes ha fun hoff => ?_
    unfold settingTest at hn
    rw [if_pos hoff] at hn
    cases hn

/-- One lane takes its operation of an action (R148). -/
theorem laneOperation_changes (s : State) (p : PortId) (a : Action) (args : ActionArgs) (i : LaneId) :
    Changes s (laneOperation s p a args i).1 := by
  cases a <;> simp only [laneOperation]
  case retrain =>
    unfold retrainLane
    split
    · exact .refl
    · exact .refl
    · next h1 h2 => exact Change.chain (.move i _ (.retrain h1 h2))
  case hold =>
    unfold holdLane
    split
    · exact .refl
    · next h => exact Change.chain (.move i _ (.hold p h))
  case release =>
    unfold releaseLane
    split
    · exact .refl
    · next h => exact Change.chain (.move i _ (.release p h))
  case measure =>
    unfold measureLane
    split
    · exact .refl
    · exact .refl
    · next h1 h2 =>
      split
      · exact .refl
      · next h => exact Change.chain (.side i _ _ (.measure h1 h2 h))
  case clearCounters =>
    unfold clearLane
    split
    · exact .refl
    · exact Change.chain (.clear i)
  case save => exact settingLane_changes (a := .save) (args := args) rfl
  case restore => exact settingLane_changes (a := .restore) (args := args) rfl
  case discard => exact settingLane_changes (a := .discard) (args := args) rfl
  case step => exact settingLane_changes (a := .step) (args := args) rfl
  case preset => exact settingLane_changes (a := .preset) (args := args) rfl
  all_goals exact .refl

theorem handedOperation_changes (s : State) (p : PortId) (a : Action) (args : ActionArgs) (i : LaneId) :
    Changes s (handedOperation s p a args i).1 := by
  unfold handedOperation
  split
  · next op ha =>
    split
    · exact .refl
    · next h => exact settingApply_changes ha h
  · exact laneOperation_changes s p a args i

/-! ## Ports -/

theorem PortStatus.within_refl (x : PortStatus) : x.within x :=
  ⟨le_max_right _ _, le_max_right _ _, le_max_right _ _⟩

/-- A port that keeps its buffer, its status and its handed operations, or loses some of the last. -/
theorem PortChange.of_kept {s : State} {p : PortId} {x : Port} (hb : x.buffer = (s.port p).buffer)
    (hs : x.status = (s.port p).status) (hh : ∀ op ∈ x.handed, op ∈ (s.port p).handed) : PortChange s p x :=
  ⟨.inl hb, hs ▸ PortStatus.within_refl _, fun op ho => .inl (hh op ho)⟩

theorem PortStatus.afterWrite_within (x : PortStatus) (block : Nat) (t : Tally) : x.within (x.afterWrite block t) := by
  simp only [PortStatus.within, PortStatus.afterWrite, raiseStatus]
  omega

theorem PortStatus.afterUnmapped_within (x : PortStatus) (block off : Nat) : x.within (x.afterUnmapped block off) := by
  simp only [PortStatus.within, PortStatus.afterUnmapped, raiseStatus]
  omega

theorem PortStatus.afterRefusedRead_within (x : PortStatus) : x.within x.afterRefusedRead := by
  simp only [PortStatus.within, PortStatus.afterRefusedRead, raiseStatus]
  omega

theorem setStatus_changes (s : State) (p : PortId) {f : PortStatus → PortStatus} (h : ∀ x : PortStatus, x.within (f x)) :
    Changes s (s.setStatus p f) :=
  Change.chain (.port p _ ⟨.inl rfl, h _, fun _ ho => .inl ho⟩)

theorem setAction_changes (s : State) (p : PortId) (f : ActionBlock → ActionBlock) : Changes s (s.setAction p f) :=
  Change.chain (.port p _ (.of_kept rfl rfl fun _ ho => ho))

theorem setOutcome_changes (s : State) (p : PortId) (b : Fin 8) (o : LaneOutcome) : Changes s (s.setOutcome p b o) :=
  setAction_changes s p _

theorem closeAction_changes (s : State) (p : PortId) : Changes s (s.closeAction p) := by
  unfold State.closeAction
  split
  · exact setAction_changes s p _
  · exact .refl

theorem markFlags_changes (s : State) (p : PortId) (f : BitVec 20) : Changes s (s.markFlags p f) :=
  Change.chain (.port p _ (.of_kept rfl rfl fun _ ho => ho))

theorem markApply_changes (b s : State) : Changes s (markApply b s) :=
  (markFlags_changes s 0 _).trans (Changes.foldl _ (fun _ _ => markFlags_changes _ _ _) _ _)

/-- One named lane of an action being taken (R146, R148). -/
theorem takeLane_changes (p : PortId) (a : Action) (later : BitVec 8) (s : State) (b : Fin 8) :
    Changes s (takeLane p a later s b) := by
  unfold takeLane
  dsimp only
  split
  · exact .refl
  · split
    · exact setOutcome_changes s p b _
    · next i hv =>
      split
      · split
        · exact setOutcome_changes s p b _
        · refine Change.chain (.port p _ ⟨.inl rfl, PortStatus.within_refl _, fun op ho => ?_⟩)
          rcases List.mem_append.mp ho with h | h
          · exact .inl h
          · rw [List.mem_singleton.mp h]
            exact .inr hv
      · exact (laneOperation_changes s p a _ i).trans (setOutcome_changes _ p b _)

theorem partOperation_changes (s : State) (a : Action) : Changes s (partOperation s a).1 := by
  have watch : ∀ f t, Changes s { s with freeze := f, watchTimer := t } := fun f t => Change.chain (.watch f t)
  have applied : Changes s s.apply.1 := Change.chain .apply
  cases a <;> simp only [partOperation]
  case freeze =>
    unfold State.freezeWatch
    split
    · exact .refl
    · exact watch _ _
  case thaw =>
    unfold State.thawWatch
    split
    · exact watch _ _
    · exact .refl
  case applyProfile =>
    split
    · next h => rw [h] at applied; exact applied.trans (markApply_changes _ _)
    · next h => rw [h] at applied; exact applied
  case softReset =>
    by_cases h : s.part = .running
    · exact Change.chain (.softReset h)
    · unfold State.softReset
      split
      · next hr => exact absurd hr h
      · exact .refl
  all_goals exact .refl

theorem runAction_changes (s : State) (p : PortId) (a : Action) (later : BitVec 8) :
    Changes s (s.runAction p a later) := by
  unfold State.runAction
  dsimp only
  refine (setAction_changes s p fun x => { x with perLane := Tab.fill 8 .none }).trans ?_
  split
  · exact (Changes.foldl _ (takeLane_changes p a later) _ _).trans (closeAction_changes _ p)
  · exact (partOperation_changes _ a).trans (setAction_changes _ p _)

theorem refuseAction_changes (s : State) (p : PortId) (o : Overall) (l : LaneOutcome) :
    Changes s (s.refuseAction p o l) := setAction_changes s p _

theorem takeAction_changes (s : State) (p : PortId) (later : BitVec 8) : Changes s (s.takeAction p later).1 := by
  unfold State.takeAction
  dsimp only
  split
  · exact runAction_changes s p _ later
  · exact refuseAction_changes s p _ _
  · exact refuseAction_changes s p _ _

/-- An operation handed out earlier is taken (R148, R159). -/
theorem takeHanded_changes (s : State) (p : PortId) (op : HandedOp) : Changes s (s.takeHanded p op) := by
  unfold State.takeHanded
  dsimp only
  have h := Change.chain (.port p { s.port p with handed := (s.port p).handed.filter fun o => decide (o ≠ op) }
    (.of_kept rfl rfl fun _ ho => List.mem_of_mem_filter ho))
  split
  · exact ((h.trans (handedOperation_changes _ p _ _ _)).trans (setOutcome_changes _ p _ _)).trans
      (closeAction_changes _ p)
  · exact h

theorem settleHanded_changes (s : State) (p : PortId) : Changes s (settleHanded s p) := by
  unfold settleHanded
  generalize (s.port p).handed.length = n
  induction n generalizing s with
  | zero => exact .refl
  | succ n ih =>
    simp only [settleUpTo]
    split
    · exact .refl
    · exact ((takeHanded_changes s p _).engineEvent s).trans (ih _)

/-! ## Stored groups -/

/-- The clamp of a field stands in its range. -/
theorem clamp_mem {lo hi : Nat} (n : Nat) (h : lo ≤ hi) : lo ≤ clamp lo hi n ∧ clamp lo hi n ≤ hi := by
  unfold clamp
  omega

/-- A property of the old value and of every written one holds after the write. -/
theorem written_ind {α : Type} {P : α → Prop} {old : α} {f : Byte → α} (b : Option Byte) (ho : P old)
    (hf : ∀ x, P (f x)) : P (written old f b) := by
  cases b with
  | none => exact ho
  | some x => exact hf x

/-- A fixed position of a policy table reads REFUSE (R176). -/
theorem PolicyTable.fixed_policyLaw (s : State) (t : PolicyTable) : State.policyLaw { s with policy := PolicyTable.fixed t } := by
  have h : ∀ {n : Nat} (x m : BitVec n), (x &&& m) &&& ~~~m = 0 := by
    intro n x m
    ext i hi
    simp only [BitVec.getElem_and, BitVec.getElem_not]
    cases x[i] <;> cases m[i] <;> simp
  exact ⟨h _ _, h _ _⟩

/-- A leg's configuration with its threshold in range (R24). -/
theorem setLeg_configChange {s : State} {k : LegId} {c : LegConfig}
    (h : (s.legs.get k).threshold ≤ 186 → c.threshold ≤ 186) : ConfigChange s (s.setLeg k c) := by
  refine ⟨rfl, fun ⟨hl, hr⟩ => ⟨fun m => ?_, hr⟩, id⟩
  show ((s.legs.set k c).get m).threshold ≤ 186
  rw [Tab.get_set]
  split
  · exact h (hl k)
  · exact hl m

theorem storeLegGroup_configChange (k : LegId) (g : FieldGroup) (b : HoldingBuffer) (s : State) :
    ConfigChange s (storeLegGroup k g b s) := by
  have same : ConfigChange s s := ⟨rfl, id, id⟩
  unfold storeLegGroup
  dsimp only
  split
  · refine setLeg_configChange fun h => ?_
    exact written_ind (P := (· ≤ 186)) _ h fun x => (clamp_mem _ (by decide)).2
  · exact setLeg_configChange id
  · exact setLeg_configChange id
  · exact ⟨rfl, id, id⟩
  · exact same

/-- A stored group is a change of the configuration or of the writing port (R167). -/
theorem storeGroup_changes (p : PortId) (r : Record) (b : HoldingBuffer) (s : State) (g : FieldGroup) :
    Changes s (storeGroup p r b s g) := by
  have config : ∀ {t}, ConfigChange s t → Changes s t := fun h => Change.chain (.config _ h)
  have zero : ∀ (n : Nat) (x : Option Byte), written n (fun _ => 0) x ≤ max statusMax n := fun n x =>
    written_ind (P := (· ≤ max statusMax n)) x (le_max_right _ _) fun _ => Nat.zero_le _
  unfold storeGroup
  split
  case h_1 =>
    refine config ⟨rfl, fun ⟨hl, hh, hr⟩ => ⟨hl, ?_, hr⟩, id⟩
    exact written_ind (P := (· ≤ 7)) _ hh fun x => (clamp_mem _ (by decide)).2
  case h_2 =>
    refine config ⟨rfl, fun ⟨hl, hh, hp, hd, hk⟩ => ⟨hl, hh, ?_, ?_, ?_⟩, id⟩
    · exact written_ind (P := fun n => 1 ≤ n ∧ n ≤ 255) _ hp fun x => clamp_mem _ (by decide)
    · exact written_ind (P := (· ≤ 63)) _ hd fun x => (clamp_mem _ (by decide)).2
    · exact written_ind (P := fun n => 1 ≤ n ∧ n ≤ 15) _ hk fun x => clamp_mem _ (by decide)
  case h_3 => exact config ⟨rfl, id, id⟩
  case h_4 => exact config ⟨rfl, id, fun _ => PolicyTable.fixed_policyLaw s _⟩
  case h_5 => exact config ⟨rfl, id, fun _ => PolicyTable.fixed_policyLaw s _⟩
  case h_6 => exact config ⟨rfl, id, fun _ => PolicyTable.fixed_policyLaw s _⟩
  case h_7 => exact config ⟨rfl, id, id⟩
  case h_8 => exact setAction_changes s p _
  case h_9 => exact Change.chain (.port p _ ⟨.inl rfl, ⟨zero _ _, zero _ _, zero _ _⟩, fun _ ho => .inl ho⟩)
  case h_10 => exact Change.chain (.port p _ (.of_kept rfl rfl fun _ ho => ho))
  case h_11 => exact Change.chain (.port p _ (.of_kept rfl rfl fun _ ho => ho))
  case h_12 =>
    split
    · exact config (storeLegGroup_configChange _ _ b s)
    · exact .refl

/-! ## Write stops and the ends of parts -/

theorem writeEffect_changes (s : State) (p : PortId) (block : Nat) (b : HoldingBuffer) (later : BitVec 8) :
    Changes s (writeEffect s p block b later).2 := by
  have stored : ∀ r, Changes s (storeGroups s p r b) := fun r => Changes.foldl _ (storeGroup_changes p r b) _ s
  unfold writeEffect
  split
  · exact setStatus_changes s p fun x => x.afterUnmapped_within _ _
  · dsimp only
    split
    · exact ((stored _).trans (takeAction_changes _ p later)).trans
        (setStatus_changes _ p fun x => x.afterWrite_within _ _)
    · exact (stored _).trans (setStatus_changes _ p fun x => x.afterWrite_within _ _)

theorem writeStop_changes (s : State) (p : PortId) (block : Nat) (b : HoldingBuffer) (later : BitVec 8) :
    Changes s (writeStop s p block b later) := by
  unfold writeStop
  exact Changes.tracked ((settleHanded_changes s p).trans (writeEffect_changes _ p block b later)) _ _

theorem hostWrite_changes (s : State) (p : PortId) (block : Nat) (es : List (Nat × Byte)) (later : BitVec 8) :
    Changes s (hostWrite s p block es later) := by
  unfold hostWrite
  split
  · exact writeStop_changes s p block _ later
  · exact .refl

theorem endWritePart_changes (s : State) (p : PortId) (later : BitVec 8) : Changes s (endWritePart s p later) := by
  have emptied : ∀ u : State, Changes u
      (u.setPort p { u.port p with phase := .idle, buffer := HoldingBuffer.empty, line := .released }) := fun u =>
    Change.chain (.port p _ ⟨.inr (.inl rfl), PortStatus.within_refl _, fun _ ho => .inl ho⟩)
  unfold endWritePart
  dsimp only
  split
  · exact (writeStop_changes s p _ _ later).trans (emptied _)
  · exact emptied s

theorem endReadPart_changes (s : State) (p : PortId) (phase : PortPhase) : Changes s (endReadPart s p phase) := by
  unfold endReadPart
  dsimp only
  refine Changes.engineEvent (Change.chain (.port p _ ?_)) s
  refine ⟨.inl rfl, ?_, fun _ ho => .inl ho⟩
  dsimp only
  split
  · exact PortStatus.afterRefusedRead_within _
  · exact PortStatus.within_refl _

theorem endPart_changes (s : State) (p : PortId) : Changes s (endPart s p) := by
  unfold endPart
  split
  · exact .refl
  · exact endReadPart_changes s p _
  · exact endReadPart_changes s p _
  · exact endWritePart_changes s p 0

end Sys2Proof.Machine
end

section
namespace Sys2Proof.Machine

/-! ## Every command is a chain of changes -/

theorem issueCode_changes (s : State) (p : PortId) (code : Byte) (args : ActionArgs) (later : BitVec 8) :
    Changes s (issueCode s p code args later) := hostWrite_changes s p _ _ later

theorem issueAction_changes (s : State) (p : PortId) (a : Action) (args : ActionArgs) (later : BitVec 8) :
    Changes s (issueAction s p a args later) := issueCode_changes s p _ args later

/-- A command leaves a state that a chain of changes leads to. -/
def Leads (s : State) (o : Host.Outcome State Fault Refusal) : Prop := ∀ t, o = .next t → Changes s t

theorem Leads.next {s t : State} (h : Changes s t) : Leads s (.next t) := fun u hu => by
  cases hu
  exact h

theorem Leads.idle (s : State) : Leads s (.next s) := .next .refl

theorem imageLoadComplete_leads (found : Option FactoryImage) (s : State) :
    Leads s (execImageLoadComplete found s) := by
  unfold execImageLoadComplete
  split
  · next h =>
    refine .next ?_
    rw [completeLoad_eq]
    split
    · next hc => exact Change.chain (.load _ h.1 hc)
    · exact Change.chain (.loadFails _ _)
  · exact .idle s

theorem legResetReleased_leads (k : LegId) (s : State) : Leads s (execLegResetReleased k s) := by
  unfold execLegResetReleased
  split
  · refine .next ?_
    have released := (settleHanded_changes s (legPort k)).tail (.lineReleased k)
    refine (Changes.engineEvent released (settleHanded s (legPort k))).tail (.port (legPort k) Port.reset ?_)
    exact ⟨.inr (.inl rfl), ⟨Nat.zero_le _, Nat.zero_le _, Nat.zero_le _⟩, fun op ho => absurd ho List.not_mem_nil⟩
  · exact .idle s

theorem signalLost_leads (r : Receiver) (s : State) : Leads s (execSignalLost r s) := by
  have lost : Changes s (s.setRx r ⟨false, false⟩) := Change.chain (.receiver r _)
  unfold execSignalLost
  split
  · dsimp only
    split
    · exact .next (Changes.engineEvent (lost.trans (segmentLosesSignal_changes _ _ _)) s)
    · exact .next lost
  · exact .idle s

theorem lockLost_leads (r : Receiver) (s : State) : Leads s (execLockLost r s) := by
  have lost : Changes s (s.setRx r { s.rx r with lock := false }) := Change.chain (.receiver r _)
  unfold execLockLost
  split
  · dsimp only
    split
    · exact .next (Changes.engineEvent (lost.trans (segmentLosesLock_changes _ _ _)) s)
    · exact .next lost
  · exact .idle s

theorem lockRegained_leads (r : Receiver) (s : State) : Leads s (execLockRegained r s) := by
  have found : Changes s (s.setRx r { s.rx r with lock := true }) := Change.chain (.receiver r _)
  unfold execLockRegained
  split
  · dsimp only
    split
    · exact .next (found.tail (.side _ _ _ .stopRelock))
    · exact .next found
  · exact .idle s

theorem signalPresent_leads (r : Receiver) (s : State) : Leads s (execSignalPresent r s) := by
  unfold execSignalPresent
  split
  · exact .next (Change.chain (.receiver r _))
  · exact .idle s

theorem frameReceived_leads (r : Receiver) (bits : BitVec 94) (s : State) : Leads s (execFrameReceived r bits s) := by
  unfold execFrameReceived
  split
  · split
    · split
      · exact .idle s
      · next h => exact .next (Changes.engineEvent (takeReception_changes _ h) s)
    · exact .idle s
  · exact .idle s

/-- A timer of a side whose expiry fails the segment (R33, R34, R37, R95). -/
theorem timer_fails_changes {s : State} {i : LaneId} {d : Side} {f : Half → Half} (r : FailReason)
    (h : SideChange (s.ctx i d) (s.lane i) (s.half i d) (f (s.half i d))) :
    Changes s (engineEvent s ((s.modifyHalf i d f).failSegment i d r)) :=
  Changes.engineEvent ((modifyHalf_changes h).tail (.fail i d r)) s

theorem tAcquireExpiry_leads (i : LaneId) (d : Side) (s : State) : Leads s (execTAcquireExpiry i d s) := by
  unfold execTAcquireExpiry
  split
  · exact .idle s
  · exact .next (timer_fails_changes _ .stopAcquire)

theorem tTuneExpiry_leads (i : LaneId) (d : Side) (s : State) : Leads s (execTTuneExpiry i d s) := by
  unfold execTTuneExpiry
  split
  · exact .idle s
  · exact .next (timer_fails_changes _ .stopTune)

theorem tReplyExpiry_leads (i : LaneId) (d : Side) (s : State) : Leads s (execTReplyExpiry i d s) := by
  unfold execTReplyExpiry
  split
  · exact .idle s
  · exact .next (timer_fails_changes _ .stopReply)

theorem tRelockExpiry_leads (i : LaneId) (d : Side) (s : State) : Leads s (execTRelockExpiry i d s) := by
  unfold execTRelockExpiry
  split
  · exact .idle s
  · exact .next (Changes.engineEvent ((modifyHalf_changes .stopRelock).trans (lineLoss_changes _ i d)) s)

theorem tSettleExpiry_leads (i : LaneId) (d : Side) (s : State) : Leads s (execTSettleExpiry i d s) := by
  unfold execTSettleExpiry
  split
  · exact .idle s
  · next h => exact .next (Changes.engineEvent (Change.chain (.event i d _ (.settled (by rw [h]; nofun)))) s)

theorem tQuietExpiry_leads (i : LaneId) (s : State) : Leads s (execTQuietExpiry i s) := by
  unfold execTQuietExpiry
  split
  · next h => exact .next (Changes.engineEvent (Change.chain (.move i _ (.quiet h.1))) s)
  · exact .idle s

theorem watchPeriodExpiry_leads (s : State) : Leads s (execWatchPeriodExpiry s) := by
  unfold execWatchPeriodExpiry
  split
  · exact .idle s
  · have started : Changes s { s with freeze := s.freeze, watchTimer := some s.periodMs } := Change.chain (.watch _ _)
    exact .next (Changes.engineEvent (started.trans (Changes.foldl _ watchLane_changes _ _)) s)

theorem scanWindowEnd_leads (i : LaneId) (d : Side) (n : Nat) (s : State) : Leads s (execScanWindowEnd i d n s) := by
  unfold execScanWindowEnd
  split
  · next h =>
    have running : (s.half i d).scan.inFlight ≠ none := by
      intro hn
      rw [hn] at h
      cases h.1
    exact .next (Changes.engineEvent (Change.chain (.event i d _ (.window n running))) s)
  · exact .idle s

theorem watchRetrainRequest_leads (i : LaneId) (s : State) : Leads s (execWatchRetrainRequest i s) := by
  unfold execWatchRetrainRequest
  split
  · next h => exact .next (Changes.engineEvent (Change.chain (.move i _ (.watchRetrain h.2))) s)
  · exact .next (Change.chain (.dropRequest i))

theorem applyLaneCase_leads (i : LaneId) (s : State) : Leads s (execApplyLaneCase i s) := by
  unfold execApplyLaneCase
  split
  · exact .idle s
  · next h => exact .next (Changes.engineEvent (Change.chain (.move i _ (.applyCase h))) s)

theorem actionLaneOperation_leads (p : PortId) (b : Fin 8) (s : State) : Leads s (execActionLaneOperation p b s) := by
  unfold execActionLaneOperation
  split
  · exact .idle s
  · exact .next (Changes.engineEvent (takeHanded_changes s p _) s)

/-- A port that keeps its buffer, its status and its handed operations. -/
theorem bus_changes {s : State} {p : PortId} {x : Port} (hb : x.buffer = (s.port p).buffer)
    (hs : x.status = (s.port p).status) (hh : x.handed = (s.port p).handed) : Changes s (s.setPort p x) :=
  Change.chain (.port p x (.of_kept hb hs fun _ ho => hh ▸ ho))

theorem busStartAddress_leads (p : PortId) (addr : BitVec 7) (dir : BusDir) (s : State) :
    Leads s (execBusStartAddress p addr dir s) := by
  have ended := (settleHanded_changes s p).trans (endPart_changes _ p)
  unfold execBusStartAddress
  split
  · dsimp only
    split
    · exact .next (ended.trans (bus_changes rfl rfl rfl))
    · exact .next (ended.trans (bus_changes rfl rfl rfl))
  · exact .idle s

theorem pointerByte_leads (p : PortId) (b : Byte) (s : State) : Leads s (execPointerByte p b s) := by
  unfold execPointerByte
  split
  · exact .next (bus_changes rfl rfl rfl)
  · exact .next (bus_changes rfl rfl rfl)
  · exact .idle s

theorem dataByteWritten_leads (p : PortId) (b : Byte) (s : State) : Leads s (execDataByteWritten p b s) := by
  unfold execDataByteWritten
  split
  · refine .next (Change.chain (.port p _ ?_))
    exact ⟨.inr (.inr ⟨_, _, rfl⟩), PortStatus.within_refl _, fun _ ho => .inl ho⟩
  · exact .idle s

theorem readByteSent_leads (p : PortId) (s : State) : Leads s (execReadByteSent p s) := by
  unfold execReadByteSent
  split
  · exact .next (bus_changes rfl rfl rfl)
  · exact .idle s

theorem hostNack_leads (p : PortId) (s : State) : Leads s (execHostNack p s) := by
  unfold execHostNack
  split
  · exact .next (endReadPart_changes s p _)
  · exact .idle s

theorem readPartEnd_leads (p : PortId) (s : State) : Leads s (execReadPartEnd p s) := by
  unfold execReadPartEnd
  split
  · exact .next (endReadPart_changes s p _)
  · exact .idle s

theorem registerWrite_leads (p : PortId) (later : BitVec 8) (s : State) : Leads s (execRegisterWrite p later s) := by
  unfold execRegisterWrite
  split
  · exact .next (endWritePart_changes s p later)
  · exact .idle s

theorem switchResetReleased_leads (s : State) : Leads s (execSwitchResetReleased s) := by
  unfold execSwitchResetReleased
  split
  · exact .next (Change.chain (.lines false true))
  · exact .idle s

theorem exec_leads (c : Instr) (s : State) : Leads s (exec c s) := by
  have issued : ∀ p a args later, Leads s (.next (issueAction s p a args later)) := fun p a args later =>
    .next (issueAction_changes s p a args later)
  cases c <;> simp only [exec]
  case powerOn sl ll => exact .next (Change.chain (.blocks sl ll _))
  case switchResetAsserted => exact .next (Change.chain (.blocks true s.legLines false))
  case switchResetReleased => exact switchResetReleased_leads s
  case imageLoadComplete img => exact imageLoadComplete_leads img s
  case legResetAsserted k => exact .next (Changes.engineEvent (Change.chain (.lineAsserted k)) s)
  case legResetReleased k => exact legResetReleased_leads k s
  case signalLost r => exact signalLost_leads r s
  case lockLost r => exact lockLost_leads r s
  case lockRegained r => exact lockRegained_leads r s
  case frameReceived r bits => exact frameReceived_leads r bits s
  case tAcquireExpiry i d => exact tAcquireExpiry_leads i d s
  case tRelockExpiry i d => exact tRelockExpiry_leads i d s
  case tTuneExpiry i d => exact tTuneExpiry_leads i d s
  case tReplyExpiry i d => exact tReplyExpiry_leads i d s
  case tSettleExpiry i d => exact tSettleExpiry_leads i d s
  case tQuietExpiry i => exact tQuietExpiry_leads i s
  case watchPeriodExpiry => exact watchPeriodExpiry_leads s
  case scanWindowEnd i d n => exact scanWindowEnd_leads i d n s
  case watchRetrainRequest i => exact watchRetrainRequest_leads i s
  case applyLaneCase i => exact applyLaneCase_leads i s
  case actionLaneOperation p b => exact actionLaneOperation_leads p b s
  case busStartAddress p addr dir => exact busStartAddress_leads p addr dir s
  case pointerByte p b => exact pointerByte_leads p b s
  case dataByteWritten p b => exact dataByteWritten_leads p b s
  case readByteSent p => exact readByteSent_leads p s
  case hostNack p => exact hostNack_leads p s
  case readPartEnd p => exact readPartEnd_leads p s
  case registerWrite p later => exact registerWrite_leads p later s
  case countsZero p x y z => exact .next (hostWrite_changes s p _ _ _)
  case bitmapClear p m => exact .next (hostWrite_changes s p _ _ _)
  case alertMaskWrite p m => exact .next (hostWrite_changes s p _ _ _)
  case actionReserved p code args => exact .next (issueCode_changes s p code args 0)
  case signalPresent r => exact signalPresent_leads r s
  all_goals exact issued _ _ _ _

/-- What the step lemmas rest on: a law that does not look at the queue and that every change keeps is kept by every
step. -/
theorem step_keeps {P : State → Prop} (hq : ∀ s q, P s → P { s with pending := q })
    (hP : ∀ s t, P s → Change s t → P t) {s t : State} (hs : P s) (h : step s = .next t) : P t := by
  unfold step at h
  split at h
  · cases h
    exact hs
  · exact Changes.keep hP (exec_leads _ _ t h) (hq s _ hs)

end Sys2Proof.Machine
end

section
/-! SUPPORT. Counters, configuration fields, buffers and the policy table stay in range (R24, R57, R112, R131, R166, R176,
R180). -/

namespace Sys2Proof.Machine

/-! ## Counters of a side and of a lane -/

theorem satInc_le {max n : Nat} (h : n ≤ max) : satInc max n ≤ max := by
  unfold satInc
  split <;> omega

theorem SearchOnly.countersLaw {h h' : Half} (e : SearchOnly h h') (hl : h.countersLaw) : h'.countersLaw := by
  unfold SearchOnly at e
  rw [e]
  exact hl

theorem record_countersLaw {h : Half} (r : Reading) (hl : h.countersLaw) : (h.record r).countersLaw :=
  ⟨hl.1, hl.2.1, satInc_le hl.2.2.1, hl.2.2.2⟩

theorem watchReading_countersLaw {h : Half} (ctx : Ctx) (r : Fom) (hl : h.countersLaw) :
    (h.watchReading ctx r).half.countersLaw := by
  obtain ⟨hf, ha, hc, hw⟩ := hl
  unfold Half.watchReading
  split
  · exact ⟨hf, satInc_le ha, hc, satInc_le hw⟩
  · exact ⟨hf, ha, hc, Nat.zero_le _⟩

theorem handReading_countersLaw {h : Half} (ctx : Ctx) (o : Origin) (r : Fom) (hl : h.countersLaw) :
    (h.handReading ctx o r).half.countersLaw := by
  cases o
  · exact (searchReading_searchOnly ctx h r).countersLaw hl
  · exact watchReading_countersLaw ctx r hl
  · exact hl

theorem startScan_countersLaw {h : Half} (ctx : Ctx) (o : Origin) (hl : h.countersLaw) :
    (h.startScan ctx o).half.countersLaw := by
  unfold Half.startScan
  split
  · exact hl
  · exact handReading_countersLaw ctx o _ (record_countersLaw _ hl)

theorem startWaiting_countersLaw {h : Half} (ctx : Ctx) (hl : h.countersLaw) :
    (h.startWaiting ctx).half.countersLaw := by
  unfold Half.startWaiting
  split
  · dsimp only
    split
    · exact startScan_countersLaw ctx _ hl
    · exact hl
  · exact hl

theorem andThen_countersLaw {o : Out} {f : Half → Out} (ho : o.half.countersLaw)
    (hf : ∀ x : Half, x.countersLaw → (f x).half.countersLaw) : (o.andThen f).half.countersLaw := by
  unfold Out.andThen
  split
  · exact ho
  · exact hf _ ho

theorem endScan_countersLaw {h : Half} (ctx : Ctx) (o : Origin) (r : Reading) (hl : h.countersLaw) :
    (h.endScan ctx o r).half.countersLaw :=
  andThen_countersLaw (handReading_countersLaw ctx o _ (record_countersLaw r hl)) fun _ => startWaiting_countersLaw ctx

theorem endEdge_countersLaw {h : Half} (ctx : Ctx) (sc : Scan) (v : Nat) (hl : h.countersLaw) :
    (h.endEdge ctx sc v).half.countersLaw := by
  unfold Half.endEdge
  dsimp only
  split
  · exact hl
  · exact endScan_countersLaw ctx _ _ hl

/-- An event on a side keeps its counters in range. -/
theorem SideEvent.countersLaw {ctx : Ctx} {l : Lane} {h : Half} {o : Out} (e : SideEvent ctx l h o)
    (hl : h.countersLaw) : o.half.countersLaw := by
  cases e with
  | lockLost =>
    unfold Half.scanLosesLock
    split
    · exact endScan_countersLaw ctx _ _ hl
    · exact hl
  | frame f _ _ =>
    have e := takeFrame_exchangeOnly ctx h f
    unfold ExchangeOnly at e
    rw [e]
    exact hl
  | settled _ =>
    unfold Half.requestSearchScan
    split
    · exact hl
    · exact startScan_countersLaw ctx _ (h := h.stopSettle) hl
  | watched _ =>
    unfold Half.requestWatchScan
    split
    · exact hl
    · exact startScan_countersLaw ctx _ hl
  | window n _ =>
    unfold Half.windowEnd
    split
    · exact hl
    · split
      · exact endEdge_countersLaw ctx _ _ hl
      · split
        · exact hl
        · exact endEdge_countersLaw ctx _ _ hl

theorem SideChange.countersLaw {ctx : Ctx} {l : Lane} {h h' : Half} (e : SideChange ctx l h h') (hl : h.countersLaw) :
    h'.countersLaw := by
  cases e with
  | startRelock =>
    unfold Half.startRelock
    split <;> exact hl
  | badFrame => exact ⟨satInc_le hl.1, hl.2⟩
  | measure _ _ _ => exact startScan_countersLaw ctx _ hl
  | stopRelock | stopAcquire | stopTune | stopReply | suspect | setting => exact hl

theorem setHalf_countersLaw {l : Lane} {d : Side} {h : Half} (hl : l.countersLaw) (hh : h.countersLaw) :
    (l.setHalf d h).countersLaw := by
  obtain ⟨ht, hf, hd, hr, hs, hc⟩ := hl
  cases d
  · exact ⟨ht, hf, hd, hr, hh, hc⟩
  · exact ⟨ht, hf, hd, hr, hs, hh⟩

theorem half_countersLaw {l : Lane} (d : Side) (hl : l.countersLaw) : (l.half d).countersLaw := by
  obtain ⟨-, -, -, -, hs, hc⟩ := hl
  cases d
  · exact hs
  · exact hc

theorem abandon_countersLaw {h : Half} (o : Origin) (hl : h.countersLaw) : (h.abandon o).countersLaw := by
  unfold Half.abandon
  split <;> exact hl

theorem setIdle_countersLaw {h : Half} (hl : h.countersLaw) : h.setIdle.countersLaw :=
  abandon_countersLaw .search hl

/-! ## Lane entries -/

theorem trainFresh_countersLaw {l : Lane} (cfg : LegConfig) (hl : l.countersLaw) : (l.trainFresh cfg).countersLaw := by
  obtain ⟨ht, hf, hd, hr, hs, hc⟩ := hl
  exact ⟨satInc_le ht, hf, hd, hr, setIdle_countersLaw (abandon_countersLaw .watch hs),
    setIdle_countersLaw (abandon_countersLaw .watch hc)⟩

theorem enterDown_countersLaw {l : Lane} (hl : l.countersLaw) : l.enterDown.countersLaw := by
  obtain ⟨ht, hf, hd, hr, hs, hc⟩ := hl
  exact ⟨ht, hf, hd, hr, setIdle_countersLaw (h := l.s.abandonAll) hs, setIdle_countersLaw (h := l.c.abandonAll) hc⟩

theorem goOn_countersLaw {l : Lane} (cfg : LegConfig) (hl : l.countersLaw) : (l.goOn cfg).countersLaw := by
  unfold Lane.goOn
  split
  · exact trainFresh_countersLaw cfg hl
  · exact hl

theorem enterOff_countersLaw {l : Lane} (hl : l.countersLaw) : l.enterOff.countersLaw := enterDown_countersLaw hl

theorem enable_countersLaw {l : Lane} (cfg : LegConfig) (line : Bool) (pair : Option SwitchLane) (hl : l.countersLaw) :
    (l.enable cfg line pair).countersLaw := goOn_countersLaw cfg (enterDown_countersLaw hl)

theorem fail_countersLaw {l : Lane} (d : Side) (r : FailReason) (hl : l.countersLaw) : (l.fail d r).countersLaw := by
  have hd : ({ l.half d with seg := { (l.half d).seg with reason := r } } : Half).countersLaw := half_countersLaw d hl
  obtain ⟨ht, hf, hdr, hr, hs, hc⟩ := setHalf_countersLaw hl hd
  refine ⟨ht, ?_, hdr, hr, setIdle_countersLaw hs, setIdle_countersLaw hc⟩
  have e := hf
  simp only [Lane.setHalf_failures] at e
  simpa only [Lane.fail, Lane.setHalf_failures] using satInc_le e

theorem addHold_countersLaw {l : Lane} (x : HoldSet) (hl : l.countersLaw) : (l.addHold x).countersLaw := by
  unfold Lane.addHold
  split
  · exact hl
  · exact enterDown_countersLaw hl

theorem takeCase_countersLaw {l : Lane} (cfg : LegConfig) (pair : Option SwitchLane) (hl : l.countersLaw) :
    (l.takeCase cfg pair).countersLaw := by
  unfold Lane.takeCase
  split
  · exact hl
  · split
    · exact goOn_countersLaw cfg (enterDown_countersLaw hl)
    · exact hl

theorem enterCarry_countersLaw {l : Lane} (hl : l.countersLaw) : l.enterCarry.countersLaw := by
  obtain ⟨ht, hf, hd, hr, ⟨sf, sa, sc, -⟩, cf, ca, cc, -⟩ := hl
  exact ⟨ht, hf, hd, hr, ⟨sf, sa, sc, Nat.zero_le _⟩, cf, ca, cc, Nat.zero_le _⟩

theorem pullBack_countersLaw {l : Lane} (hl : l.countersLaw) : l.pullBack.countersLaw := by
  obtain ⟨ht, hf, hd, hr, hs, hc⟩ := hl
  exact ⟨ht, hf, hd, hr, abandon_countersLaw .watch hs, abandon_countersLaw .watch hc⟩

theorem clearCounters_countersLaw (l : Lane) (hl : l.countersLaw) : l.clearCounters.countersLaw := by
  obtain ⟨-, -, -, -, ⟨-, -, -, hs⟩, -, -, -, hc⟩ := hl
  have z := Nat.zero_le counterMax
  exact ⟨z, z, z, z, ⟨z, z, z, hs⟩, z, z, z, hc⟩

theorem softReset_countersLaw (l : Lane) (cfg : LegConfig) : (l.softReset cfg).countersLaw := by
  have z := Nat.zero_le counterMax
  have side : ∀ (h : Half) (p : Fin 4), (h.softReset p).countersLaw := fun _ _ => ⟨z, z, z, Nat.zero_le _⟩
  unfold Lane.softReset
  dsimp only
  split
  · exact ⟨z, z, z, z, side _ _, side _ _⟩
  · exact goOn_countersLaw cfg ⟨z, z, z, z, side _ _, side _ _⟩

theorem applyLane_countersLaw (before s : State) (i : LaneId) {l : Lane} (hl : l.countersLaw) :
    (applyLane before s i l).countersLaw := by
  unfold applyLane
  split
  · exact hl
  · dsimp only
    split
    · exact enterOff_countersLaw hl
    · exact enable_countersLaw _ _ _ hl
    · exact hl
    · exact hl

theorem assertLine_countersLaw {l : Lane} (hl : l.countersLaw) : l.assertLine.countersLaw := by
  unfold Lane.assertLine
  split
  · exact hl
  · exact addHold_countersLaw _ hl

theorem LaneMove.countersLaw {s : State} {i : LaneId} {f : Lane → Lane} (m : LaneMove s i f) {l : Lane}
    (hl : l.countersLaw) : (f l).countersLaw := by
  have fresh := trainFresh_countersLaw (s.legConfig i) hl
  cases m with
  | drop _ =>
    obtain ⟨ht, hf, -, hr, hh⟩ := fresh
    exact ⟨ht, hf, satInc_le hl.2.2.1, hr, hh⟩
  | quiet _ => exact fresh
  | watchRetrain _ =>
    obtain ⟨ht, hf, hd, -, hh⟩ := fresh
    exact ⟨ht, hf, hd, satInc_le hl.2.2.2.1, hh⟩
  | applyCase _ => exact takeCase_countersLaw _ _ hl
  | retrain _ _ => exact trainFresh_countersLaw _ (l := { l with fc := 0 }) hl
  | hold p _ => exact addHold_countersLaw _ hl
  | release p _ => exact goOn_countersLaw _ (l := { l with hold := l.hold.withMember p false }) hl

/-! ## Lanes of the part -/

/-- The counters of every lane are in range (R57). -/
def State.laneCounters (s : State) : Prop := ∀ i : LaneId, (s.lane i).countersLaw

theorem laneCounters_setLane {s : State} {i : LaneId} {l : Lane} (h : s.laneCounters) (hl : l.countersLaw) :
    (s.setLane i l).laneCounters := by
  intro j
  rw [State.lane_setLane]
  split
  · exact hl
  · exact h j

theorem laneCounters_mapLeg {s : State} {k : LegId} {f : LaneId → Lane → Lane} (h : s.laneCounters)
    (hf : ∀ i l, Lane.countersLaw l → (f i l).countersLaw) : (s.mapLeg k f).laneCounters := by
  intro j
  rw [State.lane_mapLeg]
  split
  · exact hf j _ (h j)
  · exact h j

theorem laneCounters_mapIdx {s : State} {f : LaneId → Lane → Lane} (h : s.laneCounters)
    (hf : ∀ i l, Lane.countersLaw l → (f i l).countersLaw) :
    ({ s with lanes := s.lanes.mapIdx f } : State).laneCounters := by
  intro j
  have : ({ s with lanes := s.lanes.mapIdx f } : State).lane j = f j (s.lane j) := Tab.get_mapIdx _ _ _
  rw [this]
  exact hf j _ (h j)

theorem laneCounters_moveLane {s : State} {i : LaneId} {f : Lane → Lane} (h : s.laneCounters)
    (hf : (f (s.lane i)).countersLaw) : (s.moveLane i f).laneCounters := by
  obtain ⟨-, hi, hj, -⟩ := moveLane_eq s i f
  intro j
  by_cases e : j = i
  · rw [e, hi]
    exact hf
  · rw [hj j e]
    split
    · exact pullBack_countersLaw (h j)
    · exact h j

theorem laneCounters_readyCheck {s : State} (i : LaneId) (h : s.laneCounters) : (s.readyCheck i).laneCounters := by
  have ready : Lane.countersLaw { s.lane i with state := .ready } := h i
  rcases readyCheck_eq s i with ⟨e, -⟩ | ⟨-, -, -, ⟨e, -⟩ | ⟨k, -, -, -, -, hi, hj, hn⟩⟩
  · rw [e]; exact h
  · rw [e]; exact laneCounters_setLane h ready
  · intro j
    by_cases e : j = i
    · rw [e, hi]
      exact enterCarry_countersLaw ready
    · by_cases ek : s.legOf j = some k
      · rw [hj j e ek]
        exact enterCarry_countersLaw (h j)
      · rw [hn j ek]
        exact h j

theorem afterRestart_countersLaw {l : Lane} (d : Side) (hl : l.countersLaw) : (l.afterRestart d).countersLaw := by
  unfold Lane.afterRestart
  split <;> exact hl

theorem laneCounters_applyOut {s : State} {i : LaneId} {d : Side} {o : Out} (h : s.laneCounters)
    (ho : o.half.countersLaw) : (s.applyOut i d o).laneCounters := by
  have hl : Lane.countersLaw { (s.lane i).setHalf d o.half with
      retrainRequested := (s.lane i).retrainRequested || o.retrain } := setHalf_countersLaw (h i) ho
  rcases applyOut_eq s i d o with ⟨r, -, -, -, e⟩ | ⟨r, -, -, e⟩ | ⟨-, e⟩
  · rw [e]; exact laneCounters_setLane h (fail_countersLaw d r hl)
  · rw [e]; exact laneCounters_setLane h hl
  · rw [e]; exact laneCounters_readyCheck i (laneCounters_setLane h (afterRestart_countersLaw d hl))

/-- The lanes of `t` are those that an apply of a profile leaves of the lanes of `s` (R17 to R20). -/
theorem laneCounters_takeProfile {before s : State} (h : s.laneCounters) : (State.takeProfile before s).laneCounters :=
  laneCounters_mapIdx h fun i _ => applyLane_countersLaw before s i

end Sys2Proof.Machine
end

section
namespace Sys2Proof.Machine

/-! ## The end of a load, a reset and an apply, field by field -/

/-- What a load with a good image leaves, with the profile `p` installed (R15, R187). -/
def State.loadedWith (s : State) (img : FactoryImage) (p : Profile) (r : ApplyOutcome) (k : LegId) : State :=
  let t := State.takeProfile s
    { (s.installConfig img).setCurrent p with pendingProfile := img.profile, applyOutcome := r, failingLeg := k }
  { t with part := .running, loadRunning := false, faultCause := .none, freeze := false, watchTimer := some t.periodMs }

/-- The default profile of a good image is installed if it is valid (R6, R15). -/
theorem loadGood_valid (s : State) {img : FactoryImage} (h : validate (installWiring img.wiring) img.profile = none) :
    s.loadGood img = s.loadedWith img img.profile .none 0 := by
  have hw : (s.installConfig img).wiring = installWiring img.wiring := rfl
  unfold State.loadGood State.installProfile
  rw [hw, h]
  rfl

/-- Otherwise every leg stays disabled, and the apply outcome says why (R6). -/
theorem loadGood_invalid (s : State) {img : FactoryImage} {r : ApplyOutcome} {k : LegId}
    (h : validate (installWiring img.wiring) img.profile = some (r, k)) :
    s.loadGood img = s.loadedWith img disabledProfile r k := by
  have hw : (s.installConfig img).wiring = installWiring img.wiring := rfl
  unfold State.loadGood State.installProfile
  rw [hw, h]
  rfl

/-- The two ends of a load with a good image. -/
theorem loadGood_cases (s : State) (img : FactoryImage) :
    (validate (installWiring img.wiring) img.profile = none ∧ s.loadGood img = s.loadedWith img img.profile .none 0) ∨
      ∃ r k, s.loadGood img = s.loadedWith img disabledProfile r k := by
  cases hv : validate (installWiring img.wiring) img.profile with
  | none => exact .inl ⟨rfl, loadGood_valid s hv⟩
  | some x => exact .inr ⟨x.1, x.2, loadGood_invalid s hv⟩

/-- What a valid apply leaves (R16 to R20). -/
def State.appliedWith (s : State) (p : Profile) : State :=
  State.takeProfile s { s.setCurrent p with applyOutcome := .done, failingLeg := 0 }

/-- An apply refuses, leaving a reason, or takes the pending profile, which is valid then (R13, R14, R16). -/
theorem apply_cases (s : State) :
    (∃ r k, s.apply.1 = { s with applyOutcome := r, failingLeg := k }) ∨
      (s.part = .running ∧ validate s.wiring s.pendingProfile = none ∧
        s.apply.1 = s.appliedWith s.pendingProfile) := by
  unfold State.apply
  split
  · next hp =>
    split
    · next r k _ => exact .inl ⟨r, k, rfl⟩
    · next hv => exact .inr ⟨hp, hv, rfl⟩
  · exact .inl ⟨.imageFault, 0, rfl⟩

theorem softReset_running {s : State} (h : s.part = .running) :
    s.softReset = ({ s with
      lanes := s.lanes.mapIdx fun i l => l.softReset (s.legConfig i)
      legState := s.legState.mapIdx fun k st => if (s.current.legs.get k).enabled then .forming else st
      freeze := false
      watchTimer := some s.periodMs }, .done) := by
  unfold State.softReset
  rw [h]

/-! ## The laws of the ranges under every change -/

/-- The counters of the lanes stay in range under every change (R57, R103, R130). -/
theorem Change.laneCounters (s t : State) (h : s.laneCounters) (c : Change s t) : t.laneCounters := by
  have atReset : ∀ i, (State.reset.lane i).countersLaw := by decide +kernel
  cases c with
  | blocks | loadFails => exact atReset
  | lines | watch | port | track => exact h
  | receiver r _ => cases r <;> exact h
  | load img _ _ =>
    rcases loadGood_cases { s with store := img } img with ⟨-, e⟩ | ⟨r, k, e⟩
    · rw [e]; exact laneCounters_takeProfile (s := { (s.installConfig img).setCurrent _ with store := img }) h
    · rw [e]; exact laneCounters_takeProfile (s := { (s.installConfig img).setCurrent _ with store := img }) h
  | lineAsserted k => exact laneCounters_mapLeg (s := { s with legLines := _ }) h fun _ _ => assertLine_countersLaw
  | lineReleased k =>
    exact laneCounters_mapLeg (s := { s with legLines := _ }) h fun i l hl =>
      goOn_countersLaw _ (l := { l with hold := { l.hold with line := false, leg := false } }) hl
  | side i d x e => exact laneCounters_setLane h (setHalf_countersLaw (h i) (e.countersLaw (half_countersLaw d (h i))))
  | event i d o e => exact laneCounters_applyOut h (e.countersLaw (half_countersLaw d (h i)))
  | fail i d r =>
    rw [failSegment_eq]
    split
    · exact laneCounters_setLane h (fail_countersLaw d r (h i))
    · exact h
  | dropRequest i => exact laneCounters_setLane h (h i)
  | clear i => exact laneCounters_setLane h (clearCounters_countersLaw _ (h i))
  | move i f m => exact laneCounters_moveLane h (m.countersLaw (h i))
  | config _ e => rw [e.frame]; exact h
  | apply =>
    rcases apply_cases s with ⟨r, k, e⟩ | ⟨-, -, e⟩
    · rw [e]; exact h
    · rw [e]; exact laneCounters_takeProfile (s := { s.setCurrent s.pendingProfile with applyOutcome := .done, failingLeg := 0 }) h
  | softReset hp =>
    rw [softReset_running hp]
    exact laneCounters_mapIdx h fun _ l _ => softReset_countersLaw l _

/-- How the ports look after a change: those of reset, those before it, those with other bitmaps, or one rewritten. -/
theorem Change.ports {s t : State} (c : Change s t) :
    (∀ p, t.port p = Port.reset) ∨ (∀ p, ∃ x, t.port p = { s.port p with bitmap := x }) ∨
      ∃ p x, PortChange s p x ∧ t = s.setPort p x := by
  have same : ∀ {u : State}, u.ports = s.ports → ∀ p, ∃ x, u.port p = { s.port p with bitmap := x } :=
    fun e p => ⟨(s.port p).bitmap, by rw [State.port, e]; rfl⟩
  cases c with
  | blocks | loadFails => exact .inl fun p => Tab.get_fill _ _
  | port p x e => exact .inr (.inr ⟨p, x, e, rfl⟩)
  | track b o => exact .inr (.inl fun p => ⟨_, (track_eq b o s).2 p⟩)
  | lines | watch | side | dropRequest | clear | lineAsserted | lineReleased => exact .inr (.inl (same rfl))
  | receiver r _ => cases r <;> exact .inr (.inl (same rfl))
  | load img _ _ =>
    rcases loadGood_cases { s with store := img } img with ⟨-, e⟩ | ⟨r, k, e⟩ <;> exact .inr (.inl (same (by rw [e]; rfl)))
  | event i d o _ => exact .inr (.inl (same (applyOut_lanesOnly s i d o).ports))
  | fail i d r => exact .inr (.inl (same (failSegment_lanesOnly s i d r).ports))
  | move i f _ => exact .inr (.inl (same (moveLane_eq s i f).1.ports))
  | config _ e => exact .inr (.inl (same (by rw [e.frame])))
  | apply =>
    rcases apply_cases s with ⟨r, k, e⟩ | ⟨-, -, e⟩ <;> exact .inr (.inl (same (e ▸ rfl)))
  | softReset hp => exact .inr (.inl (same (by rw [softReset_running hp])))

/-- A property of a port's buffer and status that a reset port has and port changes keep is kept by every change. -/
theorem Change.port_keeps {Q : Port → Prop} (hr : Q Port.reset) (hb : ∀ x f, Q x → Q { x with bitmap := f })
    (hc : ∀ (s : State) p x, PortChange s p x → Q (s.port p) → Q x) (s t : State) (h : ∀ p, Q (s.port p))
    (c : Change s t) : ∀ p, Q (t.port p) := by
  intro p
  rcases c.ports with e | e | ⟨q, x, e, rfl⟩
  · rw [e p]
    exact hr
  · obtain ⟨f, e⟩ := e p
    rw [e]
    exact hb _ f (h p)
  · rw [State.port_setPort]
    split
    · exact hc s q x e (h q)
    · exact h p

/-- Port status counts stay in range under every change (R180). -/
theorem Change.statusCounts (s t : State) (h : ∀ p, (s.port p).status.countsLaw) (c : Change s t) :
    ∀ p, (t.port p).status.countsLaw := by
  refine Change.port_keeps (Q := fun x => x.status.countsLaw) ?_ (fun _ _ => id) ?_ s t h c
  · exact ⟨Nat.zero_le _, Nat.zero_le _, Nat.zero_le _⟩
  · intro s p x e hx
    obtain ⟨hr, hb, hu⟩ := e.status
    obtain ⟨h1, h2, h3⟩ := hx
    exact ⟨hr.trans (max_le le_rfl h1), hb.trans (max_le le_rfl h2), hu.trans (max_le le_rfl h3)⟩

/-- Holding buffers stay canonical under every change (R166). -/
theorem Change.bufferLaw (s t : State) (h : s.bufferLaw) (c : Change s t) : t.bufferLaw := by
  refine Change.port_keeps (Q := fun x => x.buffer.wf = true) rfl (fun _ _ => id) ?_ s t h c
  intro s p x e hx
  rcases e.buffer with e | e | ⟨ptr, b, e⟩
  · rw [e]; exact hx
  · rw [e]; rfl
  · rw [e]; exact HoldingBuffer.put_wf ptr b hx

/-- How the configuration fields look after a change: those of reset, those of a good image, rewritten within their ranges,
or those before it. -/
theorem Change.configuration {s t : State} (c : Change s t) :
    (t.legs = State.reset.legs ∧ t.hysteresis = 2 ∧ t.pWatch = 100 ∧ t.dDrop = 20 ∧ t.kAlarm = 3 ∧
      t.policy = refuseAll) ∨
    (∃ img, t.legs = (s.installConfig img).legs ∧ t.hysteresis = (s.installConfig img).hysteresis ∧
      t.pWatch = (s.installConfig img).pWatch ∧ t.dDrop = (s.installConfig img).dDrop ∧
      t.kAlarm = (s.installConfig img).kAlarm ∧ t.policy = (s.installConfig img).policy) ∨
    ConfigChange s t ∨
    (t.legs = s.legs ∧ t.hysteresis = s.hysteresis ∧ t.pWatch = s.pWatch ∧ t.dDrop = s.dDrop ∧ t.kAlarm = s.kAlarm ∧
      t.policy = s.policy) := by
  have lanesOnly : ∀ {u : State}, LanesOnly s u → u.legs = s.legs ∧ u.hysteresis = s.hysteresis ∧ u.pWatch = s.pWatch ∧
      u.dDrop = s.dDrop ∧ u.kAlarm = s.kAlarm ∧ u.policy = s.policy := fun e => by
    rw [e]
    exact ⟨rfl, rfl, rfl, rfl, rfl, rfl⟩
  cases c with
  | blocks | loadFails => exact .inl ⟨rfl, rfl, rfl, rfl, rfl, rfl⟩
  | config _ e => exact .inr (.inr (.inl e))
  | load img _ _ =>
    refine .inr (.inl ⟨img, ?_⟩)
    rcases loadGood_cases { s with store := img } img with ⟨-, e⟩ | ⟨r, k, e⟩ <;> rw [e] <;>
      exact ⟨rfl, rfl, rfl, rfl, rfl, rfl⟩
  | lines | watch | side | dropRequest | clear | lineAsserted | lineReleased | port | track =>
    exact .inr (.inr (.inr ⟨rfl, rfl, rfl, rfl, rfl, rfl⟩))
  | receiver r _ => cases r <;> exact .inr (.inr (.inr ⟨rfl, rfl, rfl, rfl, rfl, rfl⟩))
  | event i d o _ => exact .inr (.inr (.inr (lanesOnly (applyOut_lanesOnly s i d o))))
  | fail i d r => exact .inr (.inr (.inr (lanesOnly (failSegment_lanesOnly s i d r))))
  | move i f _ => exact .inr (.inr (.inr (lanesOnly (moveLane_eq s i f).1)))
  | apply =>
    refine .inr (.inr (.inr ?_))
    rcases apply_cases s with ⟨r, k, e⟩ | ⟨-, -, e⟩ <;> rw [e] <;> exact ⟨rfl, rfl, rfl, rfl, rfl, rfl⟩
  | softReset hp =>
    rw [softReset_running hp]
    exact .inr (.inr (.inr ⟨rfl, rfl, rfl, rfl, rfl, rfl⟩))

/-- A good image installs configuration fields in their ranges (R27, R112, R131). -/
theorem installConfig_configLaw (s : State) (img : FactoryImage) : (s.installConfig img).configLaw := by
  refine ⟨fun k => ?_, (clamp_mem _ (by decide)).2, clamp_mem _ (by decide), (clamp_mem _ (by decide)).2,
    clamp_mem _ (by decide)⟩
  have e : (s.installConfig img).legs.get k =
      if (installWiring img.wiring).present k then installLeg (img.legs.get k) else builtInLeg := Tab.get_ofFn _ _
  rw [e]
  split
  · exact (clamp_mem _ (by decide)).2
  · decide

/-- Configuration fields stay in range under every change (R24, R112, R131). -/
theorem Change.configLaw (s t : State) (h : s.configLaw) (c : Change s t) : t.configLaw := by
  rcases c.configuration with ⟨hl, hh, hp, hd, hk, -⟩ | ⟨img, hl, hh, hp, hd, hk, -⟩ | e | ⟨hl, hh, hp, hd, hk, -⟩
  · unfold State.configLaw
    rw [hl, hh, hp, hd, hk]
    decide +kernel
  · unfold State.configLaw
    rw [hl, hh, hp, hd, hk]
    exact installConfig_configLaw s img
  · exact e.config h
  · unfold State.configLaw
    rw [hl, hh, hp, hd, hk]
    exact h

/-- The fixed positions of the policy table read REFUSE under every change (R176). -/
theorem Change.policyLaw (s t : State) (h : s.policyLaw) (c : Change s t) : t.policyLaw := by
  rcases c.configuration with ⟨-, -, -, -, -, e⟩ | ⟨img, -, -, -, -, -, e⟩ | e | ⟨-, -, -, -, -, e⟩
  · unfold State.policyLaw
    rw [e]
    decide
  · unfold State.policyLaw
    rw [e]
    exact PolicyTable.fixed_policyLaw s _
  · exact e.policy h
  · unfold State.policyLaw
    rw [e]
    exact h

/-- Settles O56: each of the laws is one that every change keeps. -/
theorem stepsKeepTheRanges : Obligations.StepsKeepTheRanges := by
  intro s t h
  refine ⟨fun ⟨hl, hp⟩ => ⟨?_, ?_⟩, fun hs => ?_, fun hs => ?_, fun hs => ?_⟩
  · exact step_keeps (P := State.laneCounters) (fun _ _ => id) Change.laneCounters hl h
  · exact step_keeps (P := fun s => ∀ p, (s.port p).status.countsLaw) (fun _ _ => id) Change.statusCounts hp h
  · exact step_keeps (P := State.configLaw) (fun _ _ => id) Change.configLaw hs h
  · exact step_keeps (P := State.bufferLaw) (fun _ _ => id) Change.bufferLaw hs h
  · exact step_keeps (P := State.policyLaw) (fun _ _ => id) Change.policyLaw hs h

end Sys2Proof.Machine
end

section
/-! SUPPORT. The laws of the leg under every change: the route table, OFF and CARRY (R12, R18, R40, R54, R55). -/

namespace Sys2Proof.Machine

/-! ## The state of a lane after each entry -/

@[simp] theorem Lane.trainFresh_state (cfg : LegConfig) (l : Lane) : (l.trainFresh cfg).state = .train := rfl
@[simp] theorem Lane.enterDown_state (l : Lane) : l.enterDown.state = .down := rfl
@[simp] theorem Lane.enterOff_state (l : Lane) : l.enterOff.state = .off := rfl
@[simp] theorem Lane.enterCarry_state (l : Lane) : l.enterCarry.state = .carry := rfl
@[simp] theorem Lane.pullBack_state (l : Lane) : l.pullBack.state = .ready := rfl
@[simp] theorem Lane.trainFresh_cases (cfg : LegConfig) (l : Lane) : (l.trainFresh cfg).cases = l.cases := rfl

/-- A lane that goes on stays what it is or leaves DOWN for TRAIN (R41, R52). -/
theorem Lane.goOn_state (cfg : LegConfig) (l : Lane) :
    (l.goOn cfg).state = if l.state = .down ∧ l.hold.isEmpty = true then .train else l.state := by
  unfold Lane.goOn
  split <;> rfl

@[simp] theorem Lane.goOn_cases (cfg : LegConfig) (l : Lane) : (l.goOn cfg).cases = l.cases := by
  unfold Lane.goOn
  split <;> rfl

/-- Going on takes no lane into or out of OFF or CARRY. -/
theorem Lane.goOn_state_iff (cfg : LegConfig) (l : Lane) :
    ((l.goOn cfg).state = .off ↔ l.state = .off) ∧ ((l.goOn cfg).state = .carry ↔ l.state = .carry) := by
  rw [Lane.goOn_state]
  split
  · next h => simp [h.1]
  · exact ⟨Iff.rfl, Iff.rfl⟩

theorem Lane.goOn_of_down (cfg : LegConfig) {l : Lane} (h : l.state = .down) :
    (l.goOn cfg).state = .down ∨ (l.goOn cfg).state = .train := by
  rw [Lane.goOn_state]
  split
  · exact .inr rfl
  · exact .inl h

/-- A lane whose leg is enabled is held in DOWN by an asserted reset line and trains otherwise (R18, R53). -/
theorem Lane.enable_state (cfg : LegConfig) (line : Bool) (pair : Option SwitchLane) (l : Lane) :
    (l.enable cfg line pair).state = if line then .down else .train := by
  unfold Lane.enable
  rw [Lane.goOn_state]
  cases line <;> rfl

theorem Lane.addHold_state (l : Lane) (x : HoldSet) : (l.addHold x).state = .down := by
  unfold Lane.addHold
  split
  · next h => exact h
  · rfl

theorem Lane.fail_state (d : Side) (r : FailReason) (l : Lane) :
    (l.fail d r).state = .wait ∨ (l.fail d r).state = .fault := by
  show (if (l.setHalf d _).fc + 1 < retryBudget then LaneState.wait else .fault) = .wait ∨ _ = _
  split
  · exact .inl rfl
  · next h => exact .inr (if_neg h)

theorem Lane.takeCase_state (cfg : LegConfig) (pair : Option SwitchLane) (l : Lane) :
    (l.takeCase cfg pair).state = l.state ∨ (l.takeCase cfg pair).state = .down ∨
      (l.takeCase cfg pair).state = .train := by
  unfold Lane.takeCase
  split
  · exact .inl rfl
  · split
    · exact .inr (Lane.goOn_of_down cfg rfl)
    · exact .inl rfl

theorem Lane.softReset_state (cfg : LegConfig) (l : Lane) :
    ((l.softReset cfg).state = .off ↔ l.state = .off) ∧ (l.softReset cfg).state ≠ .carry ∧
      (l.softReset cfg).cases = l.cases := by
  unfold Lane.softReset
  dsimp only
  split
  · next h =>
    exact ⟨iff_of_true h h, by rw [Lane.mapHalves_state]; simp [h], rfl⟩
  · next h =>
    obtain ⟨hoff, hcarry⟩ := Lane.goOn_state_iff cfg
      { ({ l with trainings := 0, failures := 0, drops := 0, retrains := 0, fc := 0 } : Lane).enterDown with
        s := l.s.setIdle.softReset cfg.sTx, c := l.c.setIdle.softReset cfg.cTx }
    refine ⟨iff_of_false (fun e => ?_) h, fun e => ?_, Lane.goOn_cases _ _⟩
    · exact absurd (hoff.mp e) (by simp)
    · exact absurd (hcarry.mp e) (by simp)

/-- Where a lane that moves stands: it was not in OFF and is not, and it is in CARRY only if it was. -/
theorem LaneMove.state {s : State} {i : LaneId} {f : Lane → Lane} (m : LaneMove s i f) (h : (s.lane i).state ≠ .off) :
    (f (s.lane i)).state ≠ .off ∧ ((f (s.lane i)).state = .carry → (s.lane i).state = .carry) := by
  cases m with
  | drop hc => exact ⟨nofun, fun _ => hc⟩
  | quiet _ => exact ⟨nofun, nofun⟩
  | watchRetrain hc => exact ⟨nofun, fun _ => hc⟩
  | retrain _ _ => exact ⟨nofun, nofun⟩
  | applyCase _ =>
    rcases (s.lane i).takeCase_state (s.legConfig i) (s.route.get i).switchLane with e | e | e <;> rw [e]
    · exact ⟨h, id⟩
    · exact ⟨nofun, nofun⟩
    · exact ⟨nofun, nofun⟩
  | hold p _ =>
    rw [Lane.addHold_state]
    exact ⟨nofun, nofun⟩
  | release p _ =>
    obtain ⟨ho, hc⟩ := Lane.goOn_state_iff (s.legConfig i)
      { s.lane i with hold := (s.lane i).hold.withMember p false }
    exact ⟨fun e => h (ho.mp e), hc.mp⟩

/-! ## The laws from lanes and leg states -/

theorem serves_some {s : State} {i : LaneId} {k : LegId} (h : s.legOf i = some k) :
    s.serves i = (s.current.legs.get k).enabled := by
  unfold State.serves
  rw [h]

theorem serves_none {s : State} {i : LaneId} (h : s.legOf i = none) : s.serves i = false := by
  unfold State.serves
  rw [h]

/-- A lane in OFF has no case left, and the leg of a lane that is not OFF is enabled. -/
theorem legOf_of_not_off {s : State} (h : s.offLaw) {i : LaneId} (hi : (s.lane i).state ≠ .off) :
    ∃ k, s.legOf i = some k ∧ (s.current.legs.get k).enabled = true := by
  have hs : s.serves i = true := by
    rw [← Bool.not_eq_false, ← h.1 i]
    exact hi
  cases hk : s.legOf i with
  | none => rw [serves_none hk] at hs; cases hs
  | some k => exact ⟨k, rfl, serves_some hk ▸ hs⟩

theorem legLive_some {s : State} {i : LaneId} {k : LegId} (h : s.legOf i = some k) :
    s.legLive i = true ↔ s.legState.get k = .live := by
  unfold State.legLive
  rw [h]
  exact decide_eq_true_iff

theorem legLive_none {s : State} {i : LaneId} (h : s.legOf i = none) : s.legLive i = false := by
  unfold State.legLive
  rw [h]

/-- A change of lanes and leg states keeps the laws of the leg if it takes no lane into or out of OFF, enables or disables no
leg, and leaves CARRY and LIVE together. -/
theorem legLaw_of_lanes {s t : State} (h : s.legLaw) (e : LanesOnly s t)
    (off : ∀ i, (t.lane i).state = .off ↔ (s.lane i).state = .off)
    (cases : ∀ i, (t.lane i).state = .off → (t.lane i).cases = [])
    (leg : ∀ k, t.legState.get k = .disabled ↔ s.legState.get k = .disabled) (carry : t.carryLaw) : t.legLaw := by
  obtain ⟨route, ⟨ho, -, hd, hr⟩, -⟩ := h
  have serves : ∀ i, t.serves i = s.serves i := fun i => by rw [e]; rfl
  refine ⟨by rw [e]; exact route, ⟨fun i => ?_, cases, fun k => ?_, by rw [e]; exact hr⟩, carry⟩
  · rw [off, serves]
    exact ho i
  · rw [leg, hd, e]

/-- One lane is rewritten and stays in or out of OFF and CARRY. -/
theorem legLaw_setLane {s : State} {i : LaneId} {l : Lane} (h : s.legLaw) (off : l.state = .off ↔ (s.lane i).state = .off)
    (carry : l.state = .carry ↔ (s.lane i).state = .carry) (cases : l.state = .off → l.cases = []) :
    (s.setLane i l).legLaw := by
  have states : ∀ j, (((s.setLane i l).lane j).state = .off ↔ (s.lane j).state = .off) ∧
      (((s.setLane i l).lane j).state = .carry ↔ (s.lane j).state = .carry) ∧
      (((s.setLane i l).lane j).state = .off → ((s.setLane i l).lane j).cases = []) := by
    intro j
    rw [State.lane_setLane]
    split
    · next e => rw [e]; exact ⟨off, carry, cases⟩
    · exact ⟨Iff.rfl, Iff.rfl, h.2.1.2.1 j⟩
  exact legLaw_of_lanes h (.setLane s i l) (fun j => (states j).1) (fun j => (states j).2.2) (fun _ => Iff.rfl)
    fun j => (states j).2.1.trans (h.2.2 j)

/-- A rewriting of one lane that keeps its state and its cases. -/
theorem legLaw_setLane_same {s : State} {i : LaneId} {l : Lane} (h : s.legLaw) (hs : l.state = (s.lane i).state)
    (hc : l.cases = (s.lane i).cases) : (s.setLane i l).legLaw :=
  legLaw_setLane h (by rw [hs]) (by rw [hs]) fun e => hc.trans (h.2.1.2.1 i (hs ▸ e))

/-- A lane that was not in OFF moves; if it leaves CARRY, the Leg Engine's response keeps the law of CARRY (R55, R56). -/
theorem legLaw_moveLane {s : State} {i : LaneId} {f : Lane → Lane} (h : s.legLaw) (hi : (s.lane i).state ≠ .off)
    (hoff : (f (s.lane i)).state ≠ .off) (hcarry : (f (s.lane i)).state = .carry → (s.lane i).state = .carry) :
    (s.moveLane i f).legLaw := by
  obtain ⟨e, hself, hother, hleg⟩ := moveLane_eq s i f
  obtain ⟨k, hk, hen⟩ := legOf_of_not_off h.2.1 hi
  obtain ⟨-, ⟨-, hcases, hdis, -⟩, hlive⟩ := id h
  have off : ∀ j, ((s.moveLane i f).lane j).state = .off ↔ (s.lane j).state = .off := by
    intro j
    by_cases ej : j = i
    · rw [ej, hself]
      exact iff_of_false hoff hi
    · rw [hother j ej]
      split
      · next c => exact iff_of_false nofun (by simp [c.2.2.2.2])
      · exact Iff.rfl
  have cases : ∀ j, ((s.moveLane i f).lane j).state = .off → ((s.moveLane i f).lane j).cases = [] := by
    intro j ho
    have hj : j ≠ i := fun ej => hi ((off i).mp (ej ▸ ho))
    rw [hother j hj] at ho ⊢
    split at ho
    · cases ho
    · next c => rw [if_neg c]; exact hcases j ho
  by_cases left : (s.lane i).state = .carry ∧ (f (s.lane i)).state ≠ .carry
  · rw [if_pos left, hk] at hleg
    have forming : ∀ m, (s.moveLane i f).legState.get m = if m = k then .forming else s.legState.get m := fun m => by
      rw [hleg]
      exact Tab.get_set _ _ _ _
    refine legLaw_of_lanes h e off cases (fun m => ?_) fun j => ?_
    · rw [forming]
      split
      · next em =>
        rw [em]
        exact iff_of_false nofun (by rw [hdis, hen]; nofun)
      · exact Iff.rfl
    · cases hkj : s.legOf j with
      | none =>
        have hj : j ≠ i := fun ej => by simp [ej, hk] at hkj
        rw [hother j hj, if_neg (by simp [hkj, hk]), hlive j, legLive_none hkj, legLive_none (by rw [e.legOf, hkj])]
      | some m =>
        rw [legLive_some (by rw [e.legOf, hkj]), forming]
        by_cases em : m = k
        · subst em
          rw [if_pos rfl]
          refine iff_of_false ?_ nofun
          by_cases ej : j = i
          · rw [ej, hself]
            exact left.2
          · rw [hother j ej]
            split
            · nofun
            · next c =>
              intro hc
              exact c ⟨left.1, left.2, by simp [hk], by rw [hkj, hk], hc⟩
        · have hj : j ≠ i := fun ej => em (by simpa [ej, hk] using hkj.symm)
          rw [if_neg em, hother j hj, if_neg (by simpa [hkj, hk] using fun _ _ e => absurd e em), hlive j,
            legLive_some hkj]
  · rw [if_neg left] at hleg
    refine legLaw_of_lanes h e off cases (fun m => by rw [hleg]) fun j => ?_
    have live : (s.moveLane i f).legLive j = s.legLive j := by
      unfold State.legLive
      rw [e.legOf, hleg]
    rw [live, ← hlive j]
    by_cases ej : j = i
    · rw [ej, hself]
      exact ⟨hcarry, fun hc => by by_contra hn; exact left ⟨hc, hn⟩⟩
    · rw [hother j ej, if_neg fun c => left ⟨c.1, c.2.1⟩]

/-- The lane's READY, and the whole leg's CARRY with its last READY lane (R43, R55). -/
theorem legLaw_readyCheck {s : State} (i : LaneId) (h : s.legLaw) : (s.readyCheck i).legLaw := by
  rcases readyCheck_eq s i with ⟨e, -⟩ | ⟨ht, -, -, ⟨e, -⟩ | ⟨k, hk, hready, e, hleg, hself, hpeer, hother⟩⟩
  · rw [e]; exact h
  · rw [e]
    exact legLaw_setLane h (iff_of_false nofun (by simp [ht])) (iff_of_false nofun (by simp [ht])) nofun
  · obtain ⟨-, ⟨-, hcases, hdis, -⟩, hlive⟩ := id h
    obtain ⟨k', hk', hen⟩ := legOf_of_not_off h.2.1 (i := i) (by simp [ht])
    obtain rfl : k' = k := Option.some.inj (hk'.symm.trans hk)
    have members : ∀ j, s.legOf j = some k' → ((s.readyCheck i).lane j).state = .carry ∧ (s.lane j).state ≠ .off := by
      intro j hj
      by_cases ej : j = i
      · rw [ej, hself]
        exact ⟨rfl, by simp [ht]⟩
      · rw [hpeer j ej hj]
        exact ⟨rfl, by simp [hready j ej hj]⟩
    refine legLaw_of_lanes h e (fun j => ?_) (fun j hj => ?_) (fun m => ?_) fun j => ?_
    · by_cases hj : s.legOf j = some k'
      · obtain ⟨hc, hn⟩ := members j hj
        exact iff_of_false (by simp [hc]) hn
      · rw [hother j hj]
    · by_cases hjk : s.legOf j = some k'
      · exact absurd hj (by simp [(members j hjk).1])
      · rw [hother j hjk] at hj ⊢
        exact hcases j hj
    · rw [hleg, Tab.get_set]
      split
      · next em =>
        rw [em]
        exact iff_of_false nofun (by rw [hdis, hen]; nofun)
      · exact Iff.rfl
    · by_cases hj : s.legOf j = some k'
      · refine iff_of_true (members j hj).1 ?_
        rw [legLive_some (by rw [e.legOf, hj]), hleg, Tab.get_set_self]
      · have live : (s.readyCheck i).legLive j = s.legLive j := by
          unfold State.legLive
          rw [e.legOf, hleg]
          cases hm : s.legOf j with
          | none => rfl
          | some m =>
            have hmk : m ≠ k' := fun em => hj (by rw [hm, em])
            dsimp only
            rw [Tab.get_set_ne _ _ hmk]
        rw [live, hother j hj]
        exact hlive j

theorem legLaw_applyOut {s : State} (i : LaneId) (d : Side) (o : Out) (h : s.legLaw) : (s.applyOut i d o).legLaw := by
  have hs : ∀ (x : Half) (b : Bool), ({ (s.lane i).setHalf d x with retrainRequested := b } : Lane).state =
      (s.lane i).state := fun x _ => Lane.setHalf_state _ d x
  have hc : ∀ (x : Half) (b : Bool), ({ (s.lane i).setHalf d x with retrainRequested := b } : Lane).cases =
      (s.lane i).cases := fun x _ => Lane.setHalf_cases _ d x
  rcases applyOut_eq s i d o with ⟨r, -, ht, -, e⟩ | ⟨r, -, -, e⟩ | ⟨-, e⟩
  · rw [hs] at ht
    rw [e]
    rcases Lane.fail_state d r _ with ef | ef
    all_goals
      refine legLaw_setLane h (iff_of_false ?_ ?_) (iff_of_false ?_ ?_) fun ho => ?_
      · rw [ef]; nofun
      · rcases ht with ht | ht <;> simp [ht]
      · rw [ef]; nofun
      · rcases ht with ht | ht <;> simp [ht]
      · rw [ef] at ho; cases ho
  · rw [e]
    exact legLaw_setLane_same h (hs _ _) (hc _ _)
  · rw [e]
    refine legLaw_readyCheck i ?_
    unfold Lane.afterRestart
    split
    · next hr =>
      have ready := (hs _ _).symm.trans hr.1
      exact legLaw_setLane h (iff_of_false nofun (by simp [ready])) (iff_of_false nofun (by simp [ready])) nofun
    · exact legLaw_setLane_same h (hs _ _) (hc _ _)

theorem legLaw_failSegment {s : State} (i : LaneId) (d : Side) (r : FailReason) (h : s.legLaw) :
    (s.failSegment i d r).legLaw := by
  rw [failSegment_eq]
  split
  · next c =>
    have hs : (s.lane i).state ≠ .off ∧ (s.lane i).state ≠ .carry := by rcases c.1 with e | e <;> simp [e]
    have hf : ((s.lane i).fail d r).state ≠ .off ∧ ((s.lane i).fail d r).state ≠ .carry := by
      rcases Lane.fail_state d r (s.lane i) with e | e <;> simp [e]
    exact legLaw_setLane h (iff_of_false hf.1 hs.1) (iff_of_false hf.2 hs.2) fun ho => absurd ho hf.1
  · exact h

/-! ## The reset line of a leg -/

theorem Lane.assertLine_state (l : Lane) : l.assertLine.state = if l.state = .off then .off else .down := by
  unfold Lane.assertLine
  split
  · next h => exact h
  · exact Lane.addHold_state l _

theorem legLaw_lineAsserted {s : State} (k : LegId) (h : s.legLaw) : (s.lineAsserted k).legLaw := by
  obtain ⟨-, ⟨-, hcases, -, -⟩, hlive⟩ := id h
  have hlane : ∀ i, (s.lineAsserted k).lane i = if s.legOf i = some k then (s.lane i).assertLine else s.lane i :=
    fun i => State.lane_mapLeg { s with legLines := s.legLines.set k true } k (fun _ l => l.assertLine) i
  have hleg : ∀ m, (s.lineAsserted k).legState.get m =
      if m = k then (if s.legState.get k = .live then .forming else s.legState.get k) else s.legState.get m :=
    fun m => Tab.get_set _ _ _ _
  refine legLaw_of_lanes (s := { s with legLines := s.legLines.set k true }) h rfl (fun i => ?_) (fun i ho => ?_)
    (fun m => ?_) fun i => ?_
  · rw [hlane]
    split
    · rw [Lane.assertLine_state]
      split
      · next e => exact iff_of_true rfl e
      · next e => exact iff_of_false nofun e
    · exact Iff.rfl
  · rw [hlane] at ho ⊢
    split at ho
    · next c =>
      rw [Lane.assertLine_state] at ho
      split at ho
      · next e =>
        rw [if_pos c, Lane.assertLine, if_pos e]
        exact hcases i e
      · cases ho
    · next c =>
      rw [if_neg c]
      exact hcases i ho
  · rw [hleg]
    split
    · next em =>
      rw [em]
      split
      · next el => exact iff_of_false nofun (by show s.legState.get k ≠ _; rw [el]; nofun)
      · exact Iff.rfl
    · exact Iff.rfl
  · rw [hlane]
    cases hm : s.legOf i with
    | none =>
      rw [if_neg nofun, hlive i, legLive_none hm]
      exact iff_of_false nofun (by rw [legLive_none (s := s.lineAsserted k) hm]; nofun)
    | some m =>
      rw [legLive_some (s := s.lineAsserted k) hm, hleg]
      by_cases em : m = k
      · rw [if_pos (congrArg some em), if_pos em, Lane.assertLine_state]
        refine iff_of_false (by split <;> nofun) ?_
        split
        · nofun
        · assumption
      · rw [if_neg fun c => em (Option.some.inj c), if_neg em, hlive i, legLive_some hm]

theorem legLaw_lineReleased {s : State} (k : LegId) (h : s.legLaw) : (s.lineReleased k).legLaw := by
  have hlane : ∀ i, (s.lineReleased k).lane i =
      if s.legOf i = some k then (s.lane i).releaseLine (s.legConfig i) else s.lane i := fun i =>
    State.lane_mapLeg { s with legLines := s.legLines.set k false } k (fun i l => l.releaseLine (s.legConfig i)) i
  have states : ∀ i, (((s.lineReleased k).lane i).state = .off ↔ (s.lane i).state = .off) ∧
      (((s.lineReleased k).lane i).state = .carry ↔ (s.lane i).state = .carry) ∧
      ((s.lineReleased k).lane i).cases = (s.lane i).cases := by
    intro i
    rw [hlane]
    split
    · obtain ⟨ho, hc⟩ := Lane.goOn_state_iff (s.legConfig i)
        { s.lane i with hold := { (s.lane i).hold with line := false, leg := false } }
      exact ⟨ho, hc, Lane.goOn_cases _ _⟩
    · exact ⟨Iff.rfl, Iff.rfl, rfl⟩
  exact legLaw_of_lanes (s := { s with legLines := s.legLines.set k false }) h rfl (fun i => (states i).1)
    (fun i ho => (states i).2.2.trans (h.2.1.2.1 i ((states i).1.mp ho))) (fun _ => Iff.rfl)
    fun i => (states i).2.1.trans (h.2.2 i)

theorem softReset_lane {s : State} (hp : s.part = .running) (i : LaneId) :
    s.softReset.1.lane i = (s.lane i).softReset (s.legConfig i) := by
  rw [softReset_running hp]
  exact Tab.get_mapIdx _ _ _

theorem softReset_legState {s : State} (hp : s.part = .running) (k : LegId) :
    s.softReset.1.legState.get k = if (s.current.legs.get k).enabled then .forming else s.legState.get k := by
  rw [softReset_running hp]
  exact Tab.get_mapIdx _ _ _

theorem legLaw_softReset {s : State} (hp : s.part = .running) (h : s.legLaw) : s.softReset.1.legLaw := by
  obtain ⟨-, ⟨hoff, hcases, hdis, -⟩, hlive⟩ := id h
  have states := fun i => (s.lane i).softReset_state (s.legConfig i)
  have frame : LanesOnly { s with freeze := false, watchTimer := some s.periodMs } s.softReset.1 := by
    rw [softReset_running hp]
    rfl
  refine legLaw_of_lanes (s := { s with freeze := false, watchTimer := some s.periodMs }) h frame (fun i => ?_)
    (fun i ho => ?_) (fun m => ?_) fun i => ?_
  · rw [softReset_lane hp]
    exact (states i).1
  · rw [softReset_lane hp] at ho ⊢
    rw [(states i).2.2]
    exact hcases i ((states i).1.mp ho)
  · rw [softReset_legState hp]
    split
    · next en => exact iff_of_false nofun (by show s.legState.get m ≠ _; rw [Ne, hdis, en]; nofun)
    · exact Iff.rfl
  · rw [softReset_lane hp]
    refine iff_of_false (states i).2.1 ?_
    cases hm : s.legOf i with
    | none => rw [legLive_none (frame.legOf i ▸ hm)]; nofun
    | some m =>
      rw [legLive_some (frame.legOf i ▸ hm), softReset_legState hp]
      split
      · nofun
      · next en =>
        rw [(hdis m).mpr (by simpa using en)]
        nofun

/-! ## A new current profile -/

/-- The route table places a lane in a leg by the wiring alone (R10). -/
theorem routeEntry_leg (w : Wiring) (p : Profile) (i : LaneId) : (routeEntry w p i).leg = (w.place i).map Prod.fst := by
  unfold routeEntry
  cases w.place i <;> rfl

theorem legOf_eq_place {s : State} (h : s.routeLaw) (i : LaneId) : s.legOf i = (s.wiring.place i).map Prod.fst := by
  rw [State.legOf, h.1, routeTable, Tab.get_ofFn, routeEntry_leg]

theorem takeProfile_lane (before s : State) (i : LaneId) :
    (State.takeProfile before s).lane i = applyLane before s i (s.lane i) := Tab.get_mapIdx _ _ _

theorem takeProfile_legState (before s : State) (k : LegId) : (State.takeProfile before s).legState.get k =
    legStateAfter (before.current.legs.get k).enabled (s.current.legs.get k).enabled (s.legState.get k) :=
  Tab.get_mapIdx _ _ _

/-- The case that an apply hands to lane `i` of a leg `k` that goes on (R17, R19). -/
def handedCase (before s : State) (i : LaneId) (k : LegId) : ApplyCase :=
  let moves := decide ((before.route.get i).switchLane ≠ (s.route.get i).switchLane)
  { changed := moves || decide ((before.route.get i).sPolarity ≠ (s.route.get i).sPolarity) ||
      decide ((before.current.legs.get k).order ≠ (s.current.legs.get k).order)
    moves := moves }

section ApplyLane
variable {before s : State} {i : LaneId} {k : LegId} (l : Lane)

/-- A lane of a leg that the apply disables (R18). -/
theorem applyLane_disables (h : s.legOf i = some k) (was : (before.current.legs.get k).enabled = true)
    (now : (s.current.legs.get k).enabled = false) : applyLane before s i l = l.enterOff := by
  unfold State.legOf at h
  unfold applyLane
  simp only [h, was, now]

/-- A lane of a leg that the apply enables (R18). -/
theorem applyLane_enables (h : s.legOf i = some k) (was : (before.current.legs.get k).enabled = false)
    (now : (s.current.legs.get k).enabled = true) :
    applyLane before s i l = l.enable (s.legs.get k) (s.legLines.get k) (s.route.get i).switchLane := by
  unfold State.legOf at h
  unfold applyLane
  simp only [h, was, now]

/-- A lane of a leg that stays disabled. -/
theorem applyLane_stays (h : s.legOf i = some k) (was : (before.current.legs.get k).enabled = false)
    (now : (s.current.legs.get k).enabled = false) : applyLane before s i l = l := by
  unfold State.legOf at h
  unfold applyLane
  simp only [h, was, now]

/-- A lane of a leg that goes on is handed its case (R17, R19, R20). -/
theorem applyLane_goesOn (h : s.legOf i = some k) (was : (before.current.legs.get k).enabled = true)
    (now : (s.current.legs.get k).enabled = true) :
    applyLane before s i l = { l with
      cases := l.cases ++ [handedCase before s i k]
      sPair := if (handedCase before s i k).moves then none else l.sPair } := by
  unfold State.legOf at h
  unfold applyLane
  simp only [h, was, now]
  rfl

end ApplyLane

theorem applyLane_none {before s : State} {i : LaneId} (l : Lane) (h : s.legOf i = none) :
    applyLane before s i l = l := by
  unfold State.legOf at h
  unfold applyLane
  rw [h]

/-- What the lanes and legs must be for a profile to be taken: each lane of the new route is OFF exactly if its leg was
disabled, and where it was enabled in CARRY exactly if the leg was LIVE. -/
structure Takable (before s : State) : Prop where
  route : s.routeLaw
  none : ∀ i, s.legOf i = none → (s.lane i).state = .off
  off : ∀ i k, s.legOf i = some k → ((s.lane i).state = .off ↔ (before.current.legs.get k).enabled = false)
  cases : ∀ i, (s.lane i).state = .off → (s.lane i).cases = []
  leg : ∀ k, (s.legState.get k = .disabled ↔ (before.current.legs.get k).enabled = false)
  carry : ∀ i k, s.legOf i = some k → ((s.lane i).state = .carry ↔ s.legState.get k = .live)

/-- What a lane of leg `k` is after the apply. -/
theorem Takable.lane {before s : State} (h : Takable before s) {i : LaneId} {k : LegId} (hk : s.legOf i = some k) :
    let l := applyLane before s i (s.lane i)
    (l.state = .off ↔ (s.current.legs.get k).enabled = false) ∧ (l.state = .off → l.cases = []) ∧
      (l.state = .carry ↔ legStateAfter (before.current.legs.get k).enabled (s.current.legs.get k).enabled
        (s.legState.get k) = .live) := by
  have hoff := h.off i k hk
  have hcarry := h.carry i k hk
  dsimp only
  cases was : (before.current.legs.get k).enabled <;> cases now : (s.current.legs.get k).enabled
  · rw [applyLane_stays _ hk was now]
    have ho := hoff.mpr was
    simp [ho, h.cases i ho, legStateAfter]
  · rw [applyLane_enables _ hk was now, Lane.enable_state]
    cases s.legLines.get k <;> simp [legStateAfter]
  · rw [applyLane_disables _ hk was now]
    simp [legStateAfter, Lane.enterOff, Lane.loadTx]
  · rw [applyLane_goesOn _ hk was now]
    rw [was] at hoff
    simp only [legStateAfter, if_true]
    exact ⟨by simpa using hoff, fun ho => absurd (hoff.mp ho) nofun, hcarry⟩

theorem legStateAfter_disabled {was now : Bool} {st : LegState} (h : st = .disabled ↔ was = false) :
    legStateAfter was now st = .disabled ↔ now = false := by
  cases was <;> cases now <;> simp_all [legStateAfter]

/-- The laws of the leg hold after a profile has been taken (R15, R18, R54, R55). -/
theorem Takable.laws {before s : State} (h : Takable before s) {t : State} (e : t = State.takeProfile before s) :
    t.routeLaw ∧ (∀ i, (t.lane i).state = .off ↔ t.serves i = false) ∧
      (∀ i, (t.lane i).state = .off → (t.lane i).cases = []) ∧
      (∀ k, t.legState.get k = .disabled ↔ (t.current.legs.get k).enabled = false) ∧ t.carryLaw := by
  have legOf : ∀ i, t.legOf i = s.legOf i := fun i => by rw [e]; rfl
  have current : t.current = s.current := by rw [e]; rfl
  have lane : ∀ i, t.lane i = applyLane before s i (s.lane i) := fun i => by rw [e]; exact takeProfile_lane before s i
  have leg := fun k => (congrArg (fun u : State => u.legState.get k) e).trans (takeProfile_legState before s k)
  refine ⟨by rw [e]; exact h.route, fun i => ?_, fun i ho => ?_, fun k => ?_, fun i => ?_⟩
  · rw [lane]
    cases hk : s.legOf i with
    | none =>
      rw [applyLane_none _ hk]
      exact iff_of_true (h.none i hk) (serves_none ((legOf i).trans hk))
    | some k =>
      rw [serves_some ((legOf i).trans hk), current]
      exact (h.lane hk).1
  · rw [lane] at ho ⊢
    cases hk : s.legOf i with
    | none =>
      rw [applyLane_none _ hk] at ho ⊢
      exact h.cases i ho
    | some k => exact (h.lane hk).2.1 ho
  · rw [leg k, current]
    exact legStateAfter_disabled (h.leg k)
  · rw [lane]
    cases hk : s.legOf i with
    | none =>
      rw [applyLane_none _ hk, legLive_none (by rw [legOf, hk]), h.none i hk]
      exact iff_of_false nofun nofun
    | some k =>
      rw [legLive_some (by rw [legOf, hk]), leg k]
      exact (h.lane hk).2.2

/-- In a lawful state a lane of no leg is OFF. -/
theorem off_of_legOf_none {s : State} (h : s.offLaw) {i : LaneId} (hi : s.legOf i = none) : (s.lane i).state = .off := by
  rw [h.1 i, serves_none hi]

theorem legLaw_apply {s : State} (h : s.legLaw) : s.apply.1.legLaw := by
  rcases apply_cases s with ⟨r, k, e⟩ | ⟨hp, -, e⟩
  · rw [e]; exact h
  · obtain ⟨route, ⟨hoff, hcases, hdis, hrun⟩, hcarry⟩ := id h
    have legOf : ∀ i, (s.setCurrent s.pendingProfile).legOf i = s.legOf i := fun i =>
      (legOf_eq_place (s := s.setCurrent s.pendingProfile) ⟨rfl, rfl⟩ i).trans (legOf_eq_place route i).symm
    have takable : Takable s { s.setCurrent s.pendingProfile with applyOutcome := .done, failingLeg := 0 } := by
      refine ⟨⟨rfl, rfl⟩, fun i hi => ?_, fun i k hi => ?_, hcases, hdis, fun i k hi => ?_⟩
      · exact off_of_legOf_none h.2.1 ((legOf i).symm.trans hi)
      · refine (hoff i).trans ?_
        rw [serves_some ((legOf i).symm.trans hi)]
      · exact (hcarry i).trans (legLive_some ((legOf i).symm.trans hi))
    obtain ⟨h1, h2, h3, h4, h5⟩ := takable.laws rfl
    rw [e]
    exact ⟨h1, ⟨h2, h3, h4, fun hn => absurd hp hn⟩, h5⟩

/-- Right before the end of a load no leg is enabled, so every lane is OFF and every leg DISABLED (R6, R58). -/
theorem loading_off {s : State} (h : s.legLaw) (hp : s.part ≠ .running) :
    (∀ k, (s.current.legs.get k).enabled = false) ∧ (∀ i, (s.lane i).state = .off) ∧
      ∀ k, s.legState.get k = .disabled := by
  obtain ⟨-, ⟨hoff, -, hdis, hrun⟩, -⟩ := id h
  refine ⟨hrun hp, fun i => (hoff i).mpr ?_, fun k => (hdis k).mpr (hrun hp k)⟩
  cases hk : s.legOf i with
  | none => exact serves_none hk
  | some k => exact (serves_some hk).trans (hrun hp k)

theorem legLaw_loadedWith {s : State} (h : s.legLaw) (hp : s.part ≠ .running) (img : FactoryImage) (p : Profile)
    (r : ApplyOutcome) (k : LegId) : (s.loadedWith img p r k).legLaw := by
  obtain ⟨hen, hoff, hdis⟩ := loading_off h hp
  have takable : Takable s { (s.installConfig img).setCurrent p with
      pendingProfile := img.profile, applyOutcome := r, failingLeg := k } := by
    refine ⟨⟨rfl, rfl⟩, fun i _ => hoff i, fun i m _ => iff_of_true (hoff i) (hen m), h.2.1.2.1,
      fun m => iff_of_true (hdis m) (hen m), fun i m _ => iff_of_false ?_ ?_⟩
    · exact (hoff i).trans_ne nofun
    · exact (hdis m).trans_ne nofun
  obtain ⟨h1, h2, h3, h4, h5⟩ := takable.laws rfl
  exact ⟨h1, ⟨h2, h3, h4, fun hn => absurd rfl hn⟩, h5⟩

/-! ## Every change keeps the laws of the leg -/

theorem reset_legLaw : State.reset.legLaw := by decide +kernel

theorem Change.legLaw (s t : State) (h : s.legLaw) (c : Change s t) : t.legLaw := by
  cases c with
  | blocks line legLines running =>
    obtain ⟨hr, ⟨ho, hc, hd, hn⟩, hl⟩ := reset_legLaw
    exact ⟨hr, ⟨ho, hc, hd, hn⟩, hl⟩
  | loadFails img cause =>
    obtain ⟨hr, ⟨ho, hc, hd, hn⟩, hl⟩ := reset_legLaw
    exact ⟨hr, ⟨ho, hc, hd, fun _ => hn nofun⟩, hl⟩
  | lines | watch | port | track => exact h
  | receiver r _ => cases r <;> exact h
  | load img hp _ =>
    have hn : s.part ≠ .running := by rw [hp]; nofun
    rcases loadGood_cases { s with store := img } img with ⟨-, e⟩ | ⟨r, k, e⟩ <;> rw [e]
    · exact legLaw_loadedWith (s := { s with store := img }) h hn img _ _ _
    · exact legLaw_loadedWith (s := { s with store := img }) h hn img _ _ _
  | lineAsserted k => exact legLaw_lineAsserted k h
  | lineReleased k => exact legLaw_lineReleased k h
  | side i d x _ => exact legLaw_setLane_same h (Lane.setHalf_state _ d x) (Lane.setHalf_cases _ d x)
  | event i d o _ => exact legLaw_applyOut i d o h
  | fail i d r => exact legLaw_failSegment i d r h
  | dropRequest i => exact legLaw_setLane_same h rfl rfl
  | clear i => exact legLaw_setLane_same h rfl rfl
  | move i f m =>
    have hi : (s.lane i).state ≠ .off := by
      cases m with
      | drop hc => rw [hc]; nofun
      | quiet hw => rw [hw]; nofun
      | watchRetrain hc => rw [hc]; nofun
      | applyCase hne => exact fun ho => hne (h.2.1.2.1 i ho)
      | retrain ho _ => exact ho
      | hold _ ho => exact ho
      | release _ ho => exact ho
    obtain ⟨hoff, hcarry⟩ := m.state hi
    exact legLaw_moveLane h hi hoff hcarry
  | config _ e => rw [e.frame]; exact h
  | apply => exact legLaw_apply h
  | softReset hp => exact legLaw_softReset hp h

/-- Settles O53: the laws of the leg are kept by every change. -/
theorem stepsKeepTheLegLaw : Obligations.StepsKeepTheLegLaw := by
  intro s t hs h
  exact step_keeps (P := fun s => s.legLaw) (fun _ _ => id) Change.legLaw hs h

end Sys2Proof.Machine
end

section
/-! SUPPORT. The route map: a lawful wiring record, a valid profile, and where each lane then lands (R2, R8, R10, R11, R13). -/

namespace Sys2Proof.Machine

/-! ## A lawful wiring record -/

theorem laneCountOk_iff (n : Nat) : laneCountOk n = true ↔ n = 1 ∨ n = 2 ∨ n = 4 ∨ n = 8 := by
  simp [laneCountOk, or_assoc]

/-- What a lawful wiring record is, leg by leg (R1, R2). -/
structure Wiring.LegsLawful (w : Wiring) : Prop where
  count : w.legCount ≤ 4
  present : ∀ k, w.present k = true → laneCountOk (w.laneCount k) = true
  absent : ∀ k, w.present k = false → w.legs.get k = []
  nodup : ∀ k, (w.legs.get k).Nodup
  apart : ∀ k m i, i ∈ w.legs.get k → i ∈ w.legs.get m → k = m

/-- Lists of no repeated member, no two of which share one. -/
theorem Tab.flatten_nodup_iff {n : Nat} {α : Type} (t : Tab n (List α)) :
    t.list.flatten.Nodup ↔ (∀ k, (t.get k).Nodup) ∧ ∀ k m x, x ∈ t.get k → x ∈ t.get m → k = m := by
  have get : ∀ (j : Nat) (h : j < t.list.length), t.list[j] = t.get ⟨j, t.length_eq ▸ h⟩ := fun _ _ => rfl
  rw [List.nodup_flatten, List.pairwise_iff_getElem]
  refine and_congr ?_ ?_
  · constructor
    · exact fun h k => h _ (List.getElem_mem _)
    · intro h l hl
      obtain ⟨j, hj, rfl⟩ := List.getElem_of_mem hl
      rw [get j hj]
      exact h _
  · constructor
    · intro h k m x hk hm
      by_contra hne
      have hk' : k.val < t.list.length := by rw [t.length_eq]; exact k.isLt
      have hm' : m.val < t.list.length := by rw [t.length_eq]; exact m.isLt
      rcases Nat.lt_or_gt_of_ne (fun e => hne (Fin.ext e)) with hlt | hlt
      · exact h k.val m.val hk' hm' hlt hk hm
      · exact h m.val k.val hm' hk' hlt hm hk
    · intro h a b ha hb hab x hx hy
      rw [get a ha] at hx
      rw [get b hb] at hy
      have := congrArg Fin.val (h _ _ x hx hy)
      simp only at this
      omega

theorem Wiring.lawful_iff (w : Wiring) : w.lawful = true ↔ w.LegsLawful := by
  unfold Wiring.lawful
  simp only [Bool.and_eq_true, decide_eq_true_eq, List.all_eq_true, Tab.mem_indices, forall_const,
    Tab.flatten_nodup_iff]
  constructor
  · rintro ⟨⟨hc, hl⟩, hn, ha⟩
    refine ⟨hc, fun k hp => ?_, fun k hp => ?_, hn, ha⟩
    · simpa [hp] using hl k
    · simpa [hp] using hl k
  · intro h
    refine ⟨⟨h.count, fun k => ?_⟩, h.nodup, h.apart⟩
    cases hp : w.present k
    · simpa using h.absent k hp
    · simpa using h.present k hp

/-- Where a lane stands, from where it is listed (R3, R10). -/
theorem Wiring.LegsLawful.place_iff {w : Wiring} (h : w.LegsLawful) (i : LaneId) (k : LegId) (j : Nat) :
    w.place i = some (k, j) ↔ (w.legs.get k)[j]? = some i := by
  have found : ∀ k j, (if w.present k then ((w.legs.get k).findIdx? fun x => decide (x = i)).map fun j => (k, j)
      else none) = some (k, j) → (w.legs.get k)[j]? = some i := by
    intro k j e
    split at e
    · obtain ⟨j', hj', ej⟩ := Option.map_eq_some_iff.mp e
      obtain rfl : j' = j := congrArg Prod.snd ej
      obtain ⟨hlt, hp, -⟩ := List.findIdx?_eq_some_iff_getElem.mp hj'
      rw [List.getElem?_eq_getElem hlt, of_decide_eq_true hp]
    · cases e
  have legOfPair : ∀ m k j, (if w.present m then ((w.legs.get m).findIdx? fun x => decide (x = i)).map fun j => (m, j)
      else none) = some (k, j) → m = k := by
    intro m k j e
    split at e
    · obtain ⟨j', -, ej⟩ := Option.map_eq_some_iff.mp e
      exact congrArg Prod.fst ej
    · cases e
  unfold Wiring.place
  constructor
  · intro e
    obtain ⟨m, -, em⟩ := List.exists_of_findSome?_eq_some e
    obtain rfl := legOfPair m k j em
    exact found _ _ em
  · intro e
    obtain ⟨hlt, hget⟩ := List.getElem?_eq_some_iff.mp e
    have listed : i ∈ w.legs.get k := hget ▸ List.getElem_mem hlt
    have present : w.present k = true := by
      by_contra hn
      rw [h.absent k (by simpa using hn)] at listed
      exact absurd listed List.not_mem_nil
    cases hs : (Tab.indices 4).findSome? fun k =>
        if w.present k then ((w.legs.get k).findIdx? fun x => decide (x = i)).map fun j => (k, j) else none with
    | none =>
      have := List.findSome?_eq_none_iff.mp hs k (Tab.mem_indices k)
      rw [if_pos present, Option.map_eq_none_iff, List.findIdx?_eq_none_iff] at this
      exact absurd (this i listed) (by simp)
    | some x =>
      obtain ⟨k', j'⟩ := x
      obtain ⟨m, -, em⟩ := List.exists_of_findSome?_eq_some hs
      obtain rfl := legOfPair m k' j' em
      have e' := found _ _ em
      obtain ⟨hlt', hget'⟩ := List.getElem?_eq_some_iff.mp e'
      obtain rfl : m = k := h.apart m k i (hget' ▸ List.getElem_mem hlt') listed
      obtain rfl : j' = j := (List.Nodup.getElem_inj_iff (h.nodup m)).mp (hget'.trans hget.symm)
      rfl

/-- A lane that the wiring lists for a leg stands in that leg. -/
theorem Wiring.LegsLawful.place_of_mem {w : Wiring} (h : w.LegsLawful) {i : LaneId} {k : LegId}
    (hi : i ∈ w.legs.get k) : ∃ j, j < w.laneCount k ∧ w.place i = some (k, j) := by
  obtain ⟨j, hj, e⟩ := List.getElem_of_mem hi
  exact ⟨j, hj, (h.place_iff i k j).mpr (List.getElem?_eq_some_iff.mpr ⟨hj, e⟩)⟩

theorem Wiring.LegsLawful.lt_of_place {w : Wiring} (h : w.LegsLawful) {i : LaneId} {k : LegId} {j : Nat}
    (e : w.place i = some (k, j)) : j < w.laneCount k :=
  (List.getElem?_eq_some_iff.mp ((h.place_iff i k j).mp e)).1

/-! ## The wiring record of a valid image -/

theorem distinct_iff (xs : List Nat) : distinct xs = true ↔ xs.Nodup := by
  induction xs with
  | nil => simp [distinct]
  | cons x xs ih => simp [distinct, ih]

/-- The cable lane of a number below 8. -/
def laneId? (x : Nat) : Option LaneId := if h : x < 8 then some ⟨x, h⟩ else none

theorem laneId?_eq_some {x : Nat} {i : LaneId} : laneId? x = some i ↔ x = i.val := by
  unfold laneId?
  split
  · rw [Option.some_inj, Fin.ext_iff]
  · next h => exact ⟨nofun, fun e => absurd (e ▸ i.isLt) h⟩

theorem laneIds_eq (xs : List Nat) : laneIds xs = xs.filterMap laneId? := rfl

theorem mem_laneIds {xs : List Nat} {i : LaneId} : i ∈ laneIds xs ↔ i.val ∈ xs := by
  rw [laneIds_eq, List.mem_filterMap]
  constructor
  · rintro ⟨x, hx, e⟩
    exact laneId?_eq_some.mp e ▸ hx
  · exact fun h => ⟨i.val, h, laneId?_eq_some.mpr rfl⟩

theorem laneIds_nodup {xs : List Nat} (h : xs.Nodup) : (laneIds xs).Nodup := by
  rw [laneIds_eq]
  refine h.filterMap fun x y i hx hy => ?_
  rw [laneId?_eq_some.mp (Option.mem_def.mp hx), laneId?_eq_some.mp (Option.mem_def.mp hy)]

theorem laneIds_length {xs : List Nat} (h : ∀ x ∈ xs, x < 8) : (laneIds xs).length = xs.length := by
  induction xs with
  | nil => rfl
  | cons x xs ih =>
    have hx : laneId? x = some ⟨x, h x List.mem_cons_self⟩ := dif_pos _
    rw [laneIds_eq, List.filterMap_cons_some hx, List.length_cons, List.length_cons, ← laneIds_eq,
      ih fun y hy => h y (List.mem_cons_of_mem _ hy)]

theorem installWiring_leg (w : RawWiring) (k : LegId) : (installWiring w).legs.get k =
    ((presentLegs w)[k.val]?).elim [] fun l => laneIds l.lanes := by
  unfold installWiring
  rw [Tab.get_ofFn]
  cases (presentLegs w)[k.val]? <;> rfl

/-- A wiring record that passes the test of R2 is installed as a lawful one. -/
theorem installWiring_lawful {raw : RawWiring} (h : wiringValid raw = true) : (installWiring raw).LegsLawful := by
  unfold wiringValid at h
  simp only [Bool.and_eq_true, decide_eq_true_eq, List.all_eq_true, distinct_iff, List.nodup_flatMap] at h
  obtain ⟨⟨⟨⟨⟨⟨-, hcount⟩, hlen⟩, hok⟩, -⟩, hnodup, hpair⟩, hrange⟩ := h
  rw [List.pairwise_iff_getElem] at hpair
  have leg : ∀ (k : LegId) (hk : k.val < (presentLegs raw).length),
      (installWiring raw).legs.get k = laneIds (presentLegs raw)[k.val].lanes := fun k hk => by
    rw [installWiring_leg, List.getElem?_eq_getElem hk, Option.elim_some]
  have noLeg : ∀ k : LegId, ¬ k.val < (presentLegs raw).length → (installWiring raw).legs.get k = [] := fun k hk => by
    rw [installWiring_leg, List.getElem?_eq_none (Nat.le_of_not_lt hk), Option.elim_none]
  have present : ∀ k, (installWiring raw).present k = true ↔ k.val < (presentLegs raw).length := fun k => by
    rw [hlen]
    exact decide_eq_true_iff
  refine ⟨hcount, fun k hk => ?_, fun k hk => noLeg k fun hlt => ?_, fun k => ?_, fun k m i hk hm => ?_⟩
  · have hk := (present k).mp hk
    obtain ⟨hc, hl⟩ := hok _ (List.getElem_mem hk)
    rw [Wiring.laneCount, leg k hk, laneIds_length (hrange _ (List.getElem_mem hk)), hl]
    exact hc
  · rw [(present k).mpr hlt] at hk
    cases hk
  · by_cases hk : k.val < (presentLegs raw).length
    · rw [leg k hk]
      exact laneIds_nodup (hnodup _ (List.getElem_mem hk))
    · rw [noLeg k hk]
      exact List.nodup_nil
  · have listed : ∀ k, i ∈ (installWiring raw).legs.get k → ∃ hk : k.val < (presentLegs raw).length,
        i.val ∈ (presentLegs raw)[k.val].lanes := by
      intro k hi
      by_cases hk : k.val < (presentLegs raw).length
      · rw [leg k hk] at hi
        exact ⟨hk, mem_laneIds.mp hi⟩
      · rw [noLeg k hk] at hi
        exact absurd hi List.not_mem_nil
    obtain ⟨hk', ik⟩ := listed k hk
    obtain ⟨hm', im⟩ := listed m hm
    by_contra hne
    rcases Nat.lt_or_gt_of_ne (fun e => hne (Fin.ext e)) with hlt | hlt
    · exact hpair k.val m.val hk' hm' hlt ik im
    · exact hpair m.val k.val hm' hk' hlt im ik

/-! ## A valid profile -/

/-- What the checks of R13 say of an enabled leg that passes them. -/
structure LegFits (w : Wiring) (p : Profile) (k : LegId) : Prop where
  present : w.present k = true
  fits : (p.legs.get k).base.val + w.laneCount k ≤ 8
  start : (p.legs.get k).start.val < w.laneCount k
  apart : ∀ m, m < k → (p.legs.get m).enabled = true →
    ¬ ((p.legs.get m).base.val < (p.legs.get k).base.val + w.laneCount k ∧
      (p.legs.get k).base.val < (p.legs.get m).base.val + w.laneCount m)

theorem checkLeg_none {w : Wiring} {p : Profile} {k : LegId} (h : checkLeg w p k = none)
    (he : (p.legs.get k).enabled = true) : LegFits w p k := by
  simp only [checkLeg, he, Bool.true_eq_false, if_false] at h
  by_cases h1 : w.present k = false
  · simp [h1] at h
  by_cases h2 : (p.legs.get k).base.val % w.laneCount k ≠ 0
  · simp [h1, h2] at h
  by_cases h3 : 8 < (p.legs.get k).base.val + w.laneCount k
  · simp [h1, h2, h3] at h
  by_cases h4 : w.laneCount k ≤ (p.legs.get k).start.val
  · simp [h1, h2, h3, h4] at h
  by_cases h5 : overlapsLower w p k = true
  · simp [h1, h2, h3, h4, h5] at h
  refine ⟨by simpa using h1, by omega, by omega, fun m hm hem hover => h5 ?_⟩
  exact List.any_eq_true.mpr ⟨m, Tab.mem_indices m, by simp [hm, hem, blocksOverlap, hover.1, hover.2]⟩

theorem validate_none_iff (w : Wiring) (p : Profile) : validate w p = none ↔ ∀ k, checkLeg w p k = none := by
  unfold validate
  rw [List.findSome?_eq_none_iff]
  simp only [Option.map_eq_none_iff, Tab.mem_indices, forall_const]

/-- Every enabled leg of a valid profile fits. -/
theorem legFits_of_valid {w : Wiring} {p : Profile} (h : validate w p = none) {k : LegId}
    (he : (p.legs.get k).enabled = true) : LegFits w p k :=
  checkLeg_none ((validate_none_iff w p).mp h k) he

/-- A profile that enables no leg passes every check. -/
theorem validate_disabled (w : Wiring) : validate w disabledProfile = none := by
  refine (validate_none_iff _ _).mpr fun k => ?_
  unfold checkLeg
  exact if_pos (congrArg LegProfile.enabled (Tab.get_fill disabledLeg k))

/-! ## Where a leg lane lands -/

/-- The place of leg lane `j` in its leg's block (R8). -/
def landingOffset (p : LegProfile) (n j : Nat) : Nat :=
  match p.order with
  | .linear => (p.start.val + j) % n
  | .interleaved => p.start.val ^^^ j

theorem landing_eq (p : LegProfile) (n j : Nat) : landing p n j = p.base.val + landingOffset p n j := by
  unfold landing landingOffset
  cases p.order <;> rfl

/-- Every leg lane lands in the leg's block. -/
theorem landingOffset_lt {p : LegProfile} {n j : Nat} (hn : laneCountOk n = true) (hs : p.start.val < n) (hj : j < n) :
    landingOffset p n j < n := by
  unfold landingOffset
  cases p.order with
  | linear => exact Nat.mod_lt _ (by omega)
  | interleaved =>
    have pow : ∃ e, n = 2 ^ e := by
      rcases (laneCountOk_iff n).mp hn with h | h | h | h
      · exact ⟨0, h⟩
      · exact ⟨1, h⟩
      · exact ⟨2, h⟩
      · exact ⟨3, h⟩
    obtain ⟨e, rfl⟩ := pow
    exact Nat.xor_lt_two_pow hs hj

/-- No two lanes of a leg land on one place. -/
theorem landingOffset_inj {p : LegProfile} {n j j' : Nat} (hj : j < n) (hj' : j' < n)
    (h : landingOffset p n j = landingOffset p n j') : j = j' := by
  unfold landingOffset at h
  cases ho : p.order with
  | linear =>
    rw [ho] at h
    have : j % n = j' % n := Nat.ModEq.add_left_cancel' p.start.val h
    rwa [Nat.mod_eq_of_lt hj, Nat.mod_eq_of_lt hj'] at this
  | interleaved =>
    rw [ho] at h
    exact Nat.xor_right_injective h

/-! ## The route table -/

/-- The switch lane of a lane is that of its place in an enabled leg. -/
theorem routeEntry_switchLane {w : Wiring} {p : Profile} {i : LaneId} {x : SwitchLane} :
    (routeEntry w p i).switchLane = some x ↔ ∃ k j, w.place i = some (k, j) ∧ (p.legs.get k).enabled = true ∧
      landing (p.legs.get k) (w.laneCount k) j = x.val := by
  have number : ∀ n, switchLaneOf n = some x ↔ n = x.val := fun n => by
    unfold switchLaneOf
    split
    · rw [Option.some_inj, Fin.ext_iff]
    · next h => exact ⟨nofun, fun e => absurd (e ▸ x.isLt) h⟩
  unfold routeEntry
  cases w.place i with
  | none => exact ⟨nofun, fun ⟨_, _, e, _⟩ => nomatch e⟩
  | some kj =>
    obtain ⟨k, j⟩ := kj
    dsimp only
    constructor
    · intro h
      cases he : (p.legs.get k).enabled with
      | false => simp [he] at h
      | true => exact ⟨k, j, rfl, he, (number _).mp (by simpa [he] using h)⟩
    · rintro ⟨k', j', e, he, hl⟩
      obtain ⟨rfl, rfl⟩ := Prod.mk.inj (Option.some.inj e)
      rw [if_pos he]
      exact (number _).mpr hl

/-- A lawful wiring record with a profile that is valid against it. -/
structure Routed (w : Wiring) (p : Profile) : Prop where
  wiring : w.LegsLawful
  valid : validate w p = none

/-- Each lane of an enabled leg has one switch lane, in its leg's block (R8, R11). -/
theorem Routed.lands {w : Wiring} {p : Profile} (h : Routed w p) {i : LaneId} {k : LegId} {j : Nat}
    (hi : w.place i = some (k, j)) (he : (p.legs.get k).enabled = true) :
    ∃ x : SwitchLane, (routeEntry w p i).switchLane = some x ∧ (p.legs.get k).base.val ≤ x.val ∧
      x.val < (p.legs.get k).base.val + w.laneCount k := by
  have fit := legFits_of_valid h.valid he
  have hlt := landingOffset_lt (h.wiring.present k fit.present) fit.start (h.wiring.lt_of_place hi)
  have hfits := fit.fits
  have hland := landing_eq (p.legs.get k) (w.laneCount k) j
  refine ⟨⟨landing (p.legs.get k) (w.laneCount k) j, by omega⟩, routeEntry_switchLane.mpr ⟨k, j, hi, he, rfl⟩, ?_, ?_⟩
  · show _ ≤ landing _ _ _
    omega
  · show landing _ _ _ < _
    omega

/-- No switch lane is routed to two cable lanes (R11). -/
theorem Routed.one_to_one {w : Wiring} {p : Profile} (h : Routed w p) {i i' : LaneId} {x : SwitchLane}
    (hi : (routeEntry w p i).switchLane = some x) (hi' : (routeEntry w p i').switchLane = some x) : i = i' := by
  obtain ⟨k, j, e, he, hl⟩ := routeEntry_switchLane.mp hi
  obtain ⟨k', j', e', he', hl'⟩ := routeEntry_switchLane.mp hi'
  have fit := legFits_of_valid h.valid he
  have fit' := legFits_of_valid h.valid he'
  have hj := h.wiring.lt_of_place e
  have hj' := h.wiring.lt_of_place e'
  have hlt := landingOffset_lt (h.wiring.present k fit.present) fit.start hj
  have hlt' := landingOffset_lt (h.wiring.present k' fit'.present) fit'.start hj'
  rw [landing_eq] at hl hl'
  have same : k = k' := by
    by_contra hne
    rcases Nat.lt_or_gt_of_ne (fun e => hne (Fin.ext e)) with hlt | hlt
    · exact fit'.apart k hlt he ⟨by omega, by omega⟩
    · exact fit.apart k' hlt he' ⟨by omega, by omega⟩
  subst same
  obtain rfl : j = j' := landingOffset_inj (p := p.legs.get k) hj hj' (by omega)
  exact Option.some.inj (((h.wiring.place_iff i k j).mp e).symm.trans ((h.wiring.place_iff i' k j).mp e'))

theorem routeTable_get (w : Wiring) (p : Profile) (i : LaneId) : (routeTable w p).get i = routeEntry w p i :=
  Tab.get_ofFn _ _

theorem inverseTable_get (t : Tab 8 RouteEntry) (x : SwitchLane) : (inverseTable t).get x =
    (Tab.indices 8).find? fun i => decide ((t.get i).switchLane = some x) := Tab.get_ofFn _ _

/-- The cable lane that the inverse table shows at a switch lane is routed to it. -/
theorem inverseTable_some {t : Tab 8 RouteEntry} {x : SwitchLane} {i : LaneId} (h : (inverseTable t).get x = some i) :
    (t.get i).switchLane = some x := by
  rw [inverseTable_get] at h
  have found := List.find?_some h
  exact of_decide_eq_true found

/-- The inverse table gives each routed switch lane its cable lane (R11). -/
theorem Routed.inverse {w : Wiring} {p : Profile} (h : Routed w p) {i : LaneId} {x : SwitchLane}
    (hi : (routeEntry w p i).switchLane = some x) : (inverseTable (routeTable w p)).get x = some i := by
  cases hf : (inverseTable (routeTable w p)).get x with
  | none =>
    rw [inverseTable_get, List.find?_eq_none] at hf
    have := hf i (Tab.mem_indices i)
    rw [routeTable_get] at this
    exact absurd (decide_eq_true hi) this
  | some i' =>
    have hi' := inverseTable_some hf
    rw [routeTable_get] at hi'
    rw [h.one_to_one hi' hi]

/-- Settles O49, from the leg lane's place in its leg's block. -/
theorem validProfileRoutesOneToOne : Obligations.ValidProfileRoutesOneToOne := by
  intro raw p hw hv w
  have routed : Routed w p := ⟨installWiring_lawful hw, hv⟩
  refine ⟨fun k i hi he => ?_, fun i j x => routed.one_to_one⟩
  obtain ⟨j, -, hp⟩ := routed.wiring.place_of_mem (List.contains_iff_mem.mp hi)
  obtain ⟨x, hx, hlo, hhi⟩ := routed.lands hp he
  exact ⟨x, hx, by rw [routeEntry_leg, hp]; rfl, hlo, hhi, routed.inverse hx⟩

end Sys2Proof.Machine
end

section
/-! SUPPORT. The law of the route map under every change, and what it gives (R2, R11, R15, R16, R21, R146). -/

namespace Sys2Proof.Machine

/-- The routing that the laws of the leg and of the map speak of. -/
theorem State.mapLaw.routed {s : State} (h : s.mapLaw) : Routed s.wiring s.current :=
  ⟨(Wiring.lawful_iff _).mp h.1, h.2⟩

theorem route_get {s : State} (h : s.routeLaw) (i : LaneId) : s.route.get i = routeEntry s.wiring s.current i := by
  rw [h.1, routeTable_get]

/-- Every lane that the wiring lists for a leg belongs to it (R3, R10). -/
theorem legOf_of_mem {s : State} (h : s.routeLaw) (hm : s.mapLaw) {i : LaneId} {k : LegId}
    (hi : i ∈ s.wiring.legs.get k) : s.legOf i = some k := by
  obtain ⟨j, -, e⟩ := hm.routed.wiring.place_of_mem hi
  rw [legOf_eq_place h, e]
  rfl

/-! ## Views (R21) -/

theorem viewLane_switch (s : State) (b : Fin 8) : viewLane s 0 b = s.inverse.get b := rfl

theorem viewLane_leg (s : State) (k : LegId) (b : Fin 8) : viewLane s (legPort k) b =
    if (s.current.legs.get k).enabled then (s.wiring.legs.get k)[b.val]? else none := rfl

/-- A port is M0 or a leg's. -/
theorem port_cases (p : PortId) : p = 0 ∨ ∃ k, p = legPort k := by
  revert p
  decide

/-- A lane that a leg's view shows is one of the leg. -/
theorem legOf_viewLane {s : State} (h : s.routeLaw) (hm : s.mapLaw) {k : LegId} {b : Fin 8} {i : LaneId}
    (hv : viewLane s (legPort k) b = some i) : s.legOf i = some k := by
  rw [viewLane_leg] at hv
  split at hv
  · exact legOf_of_mem h hm (List.mem_of_getElem? hv)
  · cases hv

/-- Where no leg is enabled, no view shows a lane. -/
theorem viewLane_disabled {s : State} (h : s.routeLaw) (hd : ∀ k, (s.current.legs.get k).enabled = false) (p : PortId)
    (b : Fin 8) : viewLane s p b = none := by
  rcases port_cases p with rfl | ⟨k, rfl⟩
  · rw [viewLane_switch, h.2]
    cases e : (inverseTable s.route).get b with
    | none => rfl
    | some i =>
      have hi := inverseTable_some e
      rw [route_get h] at hi
      obtain ⟨k, -, -, he, -⟩ := routeEntry_switchLane.mp hi
      rw [hd k] at he
      cases he
  · rw [viewLane_leg, hd k]
    rfl

/-- No view shows a cable lane under two numbers (R21). -/
theorem viewOnce_of_laws {s : State} (h : s.routeLaw) (hm : s.mapLaw) (p : PortId) : viewOnce s p := by
  intro b b' i hb hb'
  rcases port_cases p with rfl | ⟨k, rfl⟩
  · rw [viewLane_switch, h.2] at hb hb'
    exact Option.some.inj ((inverseTable_some hb).symm.trans (inverseTable_some hb'))
  · rw [viewLane_leg] at hb hb'
    split at hb
    · next he =>
      rw [if_pos he] at hb'
      obtain ⟨hl, e⟩ := List.getElem?_eq_some_iff.mp hb
      obtain ⟨hl', e'⟩ := List.getElem?_eq_some_iff.mp hb'
      exact Fin.ext ((List.Nodup.getElem_inj_iff (hm.routed.wiring.nodup k)).mp (e.trans e'.symm))
    · cases hb

/-! ## The laws under every change -/

/-- Wiring, current profile and part state after a change: those of reset or of a failed load; those of a good image, the
profile valid; or, with the wiring and the part state kept, a current profile that is kept or valid. -/
theorem Change.map {s t : State} (c : Change s t) :
    (t.wiring = noWiring ∧ t.current = disabledProfile ∧ ∀ p, t.port p = Port.reset) ∨
    (s.part = .loading ∧ t.ports = s.ports ∧ t.part = .running ∧
      ∃ img : FactoryImage, wiringValid img.wiring = true ∧ t.wiring = installWiring img.wiring ∧
        validate t.wiring t.current = none) ∨
    (t.wiring = s.wiring ∧ t.part = s.part ∧ (t.current = s.current ∨ validate t.wiring t.current = none)) := by
  have lanesOnly : ∀ {u : State}, LanesOnly s u → u.wiring = s.wiring ∧ u.part = s.part ∧
      (u.current = s.current ∨ validate u.wiring u.current = none) := fun e => by
    rw [e]
    exact ⟨rfl, rfl, .inl rfl⟩
  cases c with
  | blocks | loadFails => exact .inl ⟨rfl, rfl, fun p => Tab.get_fill _ _⟩
  | load img hp hc =>
    refine .inr (.inl ⟨hp, ?_⟩)
    have hw : wiringValid img.wiring = true := by
      by_contra hn
      by_cases hk : imageCheck (imageBytes img) = img.check
      · rw [imageCause_wiring hk (by simpa using hn)] at hc
        cases hc
      · rw [imageCause_check hk] at hc
        cases hc
    rcases loadGood_cases { s with store := img } img with ⟨hv, e⟩ | ⟨r, k, e⟩
    · rw [e]
      exact ⟨rfl, rfl, img, hw, rfl, hv⟩
    · rw [e]
      exact ⟨rfl, rfl, img, hw, rfl, validate_disabled _⟩
  | apply =>
    refine .inr (.inr ?_)
    rcases apply_cases s with ⟨r, k, e⟩ | ⟨-, hv, e⟩
    · rw [e]
      exact ⟨rfl, rfl, .inl rfl⟩
    · rw [e]
      exact ⟨rfl, rfl, .inr hv⟩
  | lines | watch | side | dropRequest | clear | lineAsserted | lineReleased | port | track =>
    exact .inr (.inr ⟨rfl, rfl, .inl rfl⟩)
  | receiver r _ => cases r <;> exact .inr (.inr ⟨rfl, rfl, .inl rfl⟩)
  | event i d o _ => exact .inr (.inr (lanesOnly (applyOut_lanesOnly s i d o)))
  | fail i d r => exact .inr (.inr (lanesOnly (failSegment_lanesOnly s i d r)))
  | move i f _ => exact .inr (.inr (lanesOnly (moveLane_eq s i f).1))
  | config _ e =>
    rw [e.frame]
    exact .inr (.inr ⟨rfl, rfl, .inl rfl⟩)
  | softReset hp =>
    rw [softReset_running hp]
    exact .inr (.inr ⟨rfl, rfl, .inl rfl⟩)

theorem noWiring_lawful : noWiring.lawful = true := by decide

/-- The wiring record stays lawful and the current profile valid (R2, R15, R16). -/
theorem Change.mapLaw {s t : State} (h : s.mapLaw) (c : Change s t) : t.mapLaw := by
  rcases c.map with ⟨hw, hc, -⟩ | ⟨-, -, -, img, hw, e, hv⟩ | ⟨hw, -, hc | hv⟩
  · unfold State.mapLaw
    rw [hw, hc]
    exact ⟨noWiring_lawful, validate_disabled _⟩
  · refine ⟨?_, hv⟩
    rw [e]
    exact (Wiring.lawful_iff _).mpr (installWiring_lawful hw)
  · unfold State.mapLaw
    rw [hw, hc]
    exact h
  · exact ⟨hw ▸ h.1, hv⟩

/-- Operations out at a port after a change that resets no port: those out before, or of lanes that the port's view shows. -/
theorem Change.handed {s t : State} (c : Change s t) :
    (∀ p, t.port p = Port.reset) ∨
      ∀ p, ∀ op ∈ (t.port p).handed, op ∈ (s.port p).handed ∨ viewLane s p op.bit = some op.lane := by
  rcases c.ports with e | e | ⟨q, x, e, rfl⟩
  · exact .inl e
  · refine .inr fun p op ho => .inl ?_
    obtain ⟨f, e⟩ := e p
    rwa [e] at ho
  · refine .inr fun p op ho => ?_
    rw [State.port_setPort] at ho
    split at ho
    · next ep => exact ep ▸ e.handed op ho
    · exact .inl ho

/-- Operations out through a leg's port stay those of the leg's lanes, and none is out outside RUNNING (R146, R150). -/
theorem Change.handedLaw {s t : State} (h : s.legLaw) (hm : s.mapLaw) (hh : s.handedLaw) (ht : t.routeLaw)
    (c : Change s t) : t.handedLaw := by
  have empty : (∀ p, (t.port p).handed = []) → t.handedLaw := fun e =>
    ⟨fun k op ho => absurd (e (legPort k) ▸ ho) List.not_mem_nil, fun _ => e⟩
  have ofReset : (∀ p, t.port p = Port.reset) → t.handedLaw := fun e => empty fun p => by rw [e]; rfl
  rcases c.map with ⟨-, -, e⟩ | ⟨hp, e, -, -⟩ | ⟨hw, hp, -⟩
  · exact ofReset e
  · refine empty fun p => ?_
    rw [State.port, e]
    exact hh.2 (by rw [hp]; nofun) p
  · rcases c.handed with e | e
    · exact ofReset e
    · refine ⟨fun k op ho => ?_, fun hr p => ?_⟩
      · have legOf : t.legOf op.lane = s.legOf op.lane := by
          rw [legOf_eq_place ht, legOf_eq_place h.1, hw]
        rw [legOf]
        rcases e _ op ho with ho | hv
        · exact hh.1 k op ho
        · exact legOf_viewLane h.1 hm hv
      · have hr : s.part ≠ .running := hp ▸ hr
        refine List.eq_nil_iff_forall_not_mem.mpr fun op ho => ?_
        rcases e _ op ho with ho | hv
        · rw [hh.2 hr p] at ho
          exact absurd ho List.not_mem_nil
        · rw [viewLane_disabled h.1 (h.2.1.2.2.2 hr)] at hv
          cases hv

/-- Settles O54: the laws are kept by every change, together with the laws of the leg, and the routing of a valid profile
gives what R10, R11 and R21 say. -/
theorem stepsKeepTheRouteMapLaw : Obligations.StepsKeepTheRouteMapLaw := by
  refine ⟨fun s t hl hm hh h => ?_, fun s hl hm => ?_⟩
  · have kept := step_keeps (P := fun s => s.legLaw ∧ s.mapLaw ∧ s.handedLaw) (fun _ _ => id)
      (fun s t ⟨hl, hm, hh⟩ c =>
        have hl' := Change.legLaw s t hl c
        ⟨hl', c.mapLaw hm, c.handedLaw hl hm hh hl'.1⟩) ⟨hl, hm, hh⟩ h
    exact kept.2
  · have routed := hm.routed
    refine ⟨fun i j x hi hj => ?_, fun i k hk he => ?_, fun k i hi => ?_, viewOnce_of_laws hl.1 hm⟩
    · rw [route_get hl.1] at hi hj
      exact routed.one_to_one hi hj
    · rw [legOf_eq_place hl.1] at hk
      obtain ⟨⟨k', j⟩, hp, rfl⟩ := Option.map_eq_some_iff.mp hk
      obtain ⟨x, hx, hlo, hhi⟩ := routed.lands hp he
      refine ⟨x, by rw [route_get hl.1, hx], hlo, hhi, ?_⟩
      rw [hl.1.2, hl.1.1]
      exact routed.inverse hx
    · exact legOf_of_mem hl.1 hm (List.contains_iff_mem.mp hi)

end Sys2Proof.Machine
end

section
/-! SUPPORT. The tuning frame on the line: what a receiver finds in the symbols that a transmitter sends (R4, R81, R192). -/

namespace Sys2Proof.Machine

/-- A slice of bits that lies in the low part of a word. -/
theorem extractLsb'_append_low {n m : Nat} (x : BitVec n) (y : BitVec m) {start len : Nat} (h : start + len ≤ m) :
    (x ++ y).extractLsb' start len = y.extractLsb' start len := by
  ext i hi
  simp only [BitVec.getElem_extractLsb', BitVec.getLsbD_append]
  rw [if_pos (by omega)]

/-- A slice of bits that lies in the high part of a word. -/
theorem extractLsb'_append_high {n m : Nat} (x : BitVec n) (y : BitVec m) {start len : Nat} (h : m ≤ start) :
    (x ++ y).extractLsb' start len = x.extractLsb' (start - m) len := by
  ext i hi
  simp only [BitVec.getElem_extractLsb', BitVec.getLsbD_append]
  rw [if_neg (by omega), show start + i - m = start - m + i by omega]

theorem extractLsb'_all {n : Nat} (x : BitVec n) : x.extractLsb' 0 n = x := by
  ext i hi
  simp

theorem getLsbD_append_low {n m : Nat} (x : BitVec n) (y : BitVec m) {i : Nat} (h : i < m) :
    (x ++ y).getLsbD i = y.getLsbD i := by rw [BitVec.getLsbD_append, if_pos h]

theorem getLsbD_append_high {n m : Nat} (x : BitVec n) (y : BitVec m) {i : Nat} (h : m ≤ i) :
    (x ++ y).getLsbD i = x.getLsbD (i - m) := by rw [BitVec.getLsbD_append, if_neg (by omega)]

/-- The bits that the check covers. -/
def Frame.covered (f : Frame) : BitVec 78 := marker ++ f.payload

theorem Frame.encode_eq (f : Frame) : f.encode = f.covered ++ crcBits (msbBits f.covered) := rfl

theorem Frame.encode_marker (f : Frame) : f.encode.extractLsb' 62 32 = marker := by
  rw [Frame.encode_eq, extractLsb'_append_high _ _ (by decide), Frame.covered,
    extractLsb'_append_high _ _ (by decide)]
  exact extractLsb'_all marker

theorem Frame.encode_covered (f : Frame) : f.encode.extractLsb' 16 78 = f.covered := by
  rw [Frame.encode_eq, extractLsb'_append_high _ _ (by decide)]
  exact extractLsb'_all f.covered

theorem Frame.encode_check (f : Frame) : f.encode.extractLsb' 0 16 = crcBits (msbBits f.covered) := by
  rw [Frame.encode_eq, extractLsb'_append_low _ _ (by decide)]
  exact extractLsb'_all _

/-- The payload, its width written as the sum of its fields' widths (R192). -/
def Frame.fields (f : Frame) : BitVec (4 + 1 + 3 + 2 + 1 + 3 + 2 + 3 + 3 + 4 + 6 + 5 + 4 + 4 + 1) :=
  f.session ++ BitVec.ofBool f.ready ++ f.kind ++ f.tap ++ BitVec.ofBool f.dir ++ f.preset ++ f.tag ++ f.replyTag ++
    f.replyOutcome ++ f.echo.pre ++ f.echo.main ++ f.echo.post1 ++ f.echo.post2 ++ f.echo.depth ++ (0#1)

/-- A slice of a frame's bits between the marker and the check is one of its fields'. -/
theorem Frame.encode_slice (f : Frame) {start len : Nat} (h : 16 ≤ start) (h' : start + len ≤ 62) :
    f.encode.extractLsb' start len = f.fields.extractLsb' (start - 16) len := by
  rw [Frame.encode_eq, extractLsb'_append_high _ _ h, Frame.covered, extractLsb'_append_low _ _ (by omega)]
  rfl

theorem Frame.encode_bit (f : Frame) {i : Nat} (h : 16 ≤ i) (h' : i < 62) :
    f.encode.getLsbD i = f.fields.getLsbD (i - 16) := by
  rw [Frame.encode_eq, getLsbD_append_high _ _ h, Frame.covered, getLsbD_append_low _ _ (by omega)]
  rfl

/-- Each field of a frame is read where it was written (R192). -/
theorem Frame.parse_encode (f : Frame) : Frame.parse f.encode = f := by
  simp (disch := decide) only [Frame.parse, Frame.encode_slice, Frame.encode_bit, Frame.fields, extractLsb'_append_low,
    extractLsb'_append_high, getLsbD_append_low, getLsbD_append_high, extractLsb'_all, Nat.reduceSub]
  simp

/-- Polarity turned twice is none (R4). -/
theorem throughPolarity_twice {n : Nat} (pol : Polarity) (x : BitVec n) :
    throughPolarity pol (throughPolarity pol x) = x := by
  cases pol
  · rfl
  · exact BitVec.not_not

/-- A frame in the receiver's own polarity is good (R81). -/
theorem receive_matching (pol : Polarity) (f : Frame) : receive pol (throughPolarity pol f.encode) = .good f := by
  unfold receive
  rw [throughPolarity_twice]
  dsimp only
  rw [if_pos f.encode_marker, f.encode_covered, f.encode_check, if_pos rfl, f.parse_encode]

/-- Inverted symbols show the marker's inverted form. -/
theorem extractLsb'_not {n start len : Nat} (x : BitVec n) (h : start + len ≤ n) :
    (~~~x).extractLsb' start len = ~~~(x.extractLsb' start len) := by
  ext i hi
  simp only [BitVec.getElem_extractLsb', BitVec.getElem_not, BitVec.getLsbD_not]
  simp [show start + i < n by omega]

/-- A frame that reaches the receiver inverted shows the inverted marker (R82). -/
theorem receive_inverted {pol : Polarity} {line : BitVec 94} {f : Frame} (h : throughPolarity pol line = ~~~f.encode) :
    receive pol line = .inverted := by
  have hm : (~~~f.encode).extractLsb' 62 32 = ~~~marker := by
    rw [extractLsb'_not _ (by decide), f.encode_marker]
  unfold receive
  rw [h]
  dsimp only
  rw [hm, if_neg (by decide), if_pos rfl]

/-- Settles O13, by the polarities that meet: the frame's fields where they match, its marker inverted otherwise. -/
theorem framesSurviveTheLine : Obligations.FramesSurviveTheLine := fun f =>
  ⟨receive_matching .normal f, receive_matching .inverted f, receive_inverted rfl, receive_inverted rfl⟩

end Sys2Proof.Machine
end

section
/-! SUPPORT. What a transmitter sends in each lane state (R9, R29, R30, R79, R80). -/

namespace Sys2Proof.Machine

theorem parted_iff (l : Lane) : l.parted = true ↔ l.sPair = none := Option.isNone_iff_eq_none

section Output
variable {s : State} {i : LaneId} {d : Side}

/-- An S-transmitter that stands on no pairs is squelched (R9). -/
theorem txOutput_parted (hd : d = .S) (h : (s.lane i).sPair = none) : txOutput s i d = .squelched := by
  unfold txOutput
  exact if_pos ⟨hd, (parted_iff _).mpr h⟩

/-- Outside TRAIN, READY and CARRY both transmitters are squelched (R29). -/
theorem txOutput_resting (h : (s.lane i).state = .off ∨ (s.lane i).state = .down ∨ (s.lane i).state = .wait ∨
    (s.lane i).state = .fault) : txOutput s i d = .squelched := by
  unfold txOutput
  dsimp only
  split
  · rfl
  · rcases h with h | h | h | h <;> simp only [h]

/-- The transmitter stands on a pair. -/
def standsOnPair (s : State) (i : LaneId) (d : Side) : Prop := d = .C ∨ (s.lane i).sPair ≠ none

theorem not_parted_of_stands (h : standsOnPair s i d) : ¬ (d = .S ∧ (s.lane i).parted = true) := by
  rw [parted_iff]
  rintro ⟨rfl, hn⟩
  rcases h with h | h
  · cases h
  · exact h hn

/-- In TRAIN and READY a segment that runs sends its frames, in the transmitter's polarity and shape (R29, R79). -/
theorem txOutput_training (hs : standsOnPair s i d) (h : (s.lane i).state = .train ∨ (s.lane i).state = .ready)
    (hi : (s.half i d).seg.state ≠ .idle) :
    txOutput s i d = .frames (throughPolarity (s.txPolarity i d) (s.half i d).frame.encode) (s.half i d).tx.current := by
  unfold State.half at hi ⊢
  unfold txOutput
  dsimp only
  rw [if_neg (not_parted_of_stands hs)]
  rcases h with h | h <;> simp only [h, if_neg hi]

/-- In CARRY a transmitter whose feeding receiver waits for lock, or stands on no pairs, is squelched (R9, R30). -/
theorem txOutput_starved (hs : standsOnPair s i d) (h : (s.lane i).state = .carry)
    (hf : (s.half i (Side.opposite d)).seg.tRelock ≠ none ∨ (Side.opposite d = .S ∧ (s.lane i).sPair = none)) :
    txOutput s i d = .squelched := by
  have starved : ((s.lane i).half (Side.opposite d)).seg.tRelock.isSome = true ∨
      (Side.opposite d = .S ∧ (s.lane i).parted = true) := by
    rw [parted_iff]
    exact hf.imp_left Option.isSome_iff_ne_none.mpr
  unfold txOutput
  dsimp only
  rw [if_neg (not_parted_of_stands hs)]
  simp only [h, if_pos starved]

/-- In CARRY a transmitter forwards what the receiver that feeds it recovers (R30). -/
theorem txOutput_forwards (hs : standsOnPair s i d) (h : (s.lane i).state = .carry)
    (hr : (s.half i (Side.opposite d)).seg.tRelock = none) (hf : Side.opposite d = .C ∨ (s.lane i).sPair ≠ none) :
    txOutput s i d = .forward (Side.opposite d) (s.txPolarity i d) (s.half i d).tx.current := by
  have fed : ¬ (((s.lane i).half (Side.opposite d)).seg.tRelock.isSome = true ∨
      (Side.opposite d = .S ∧ (s.lane i).parted = true)) := by
    rintro (hn | hn)
    · rw [Option.isSome_iff_ne_none] at hn
      exact hn hr
    · exact not_parted_of_stands (d := Side.opposite d) hf hn
  unfold txOutput
  dsimp only
  rw [if_neg (not_parted_of_stands hs)]
  simp only [h, if_neg fed, State.half]

/-- A transmitter forwards in CARRY alone (R30). -/
theorem txOutput_not_forward (h : (s.lane i).state ≠ .carry) (feed : Side) (pol : Polarity) (x : Setting) :
    txOutput s i d ≠ .forward feed pol x := by
  unfold txOutput
  dsimp only
  split
  · nofun
  · split
    · split <;> nofun
    · split <;> nofun
    · next hc => exact absurd hc h
    · nofun

theorem retimed_not_carry {n : Nat} (h : (s.lane i).state ≠ .carry) (line : BitVec n) : retimed s i d line = none := by
  unfold retimed
  split
  · next e => exact absurd e (txOutput_not_forward h _ _ _)
  · rfl

theorem retimed_forward {n : Nat} {feed : Side} {pol : Polarity} {x : Setting} (h : txOutput s i d = .forward feed pol x)
    (line : BitVec n) :
    retimed s i d line = some (throughPolarity pol (throughPolarity (s.sideRxPolarity i feed) line), x) := by
  unfold retimed
  rw [h]

end Output

/-! ## The polarities (R4, R9) -/

theorem txPolarity_S (s : State) (i : LaneId) :
    s.txPolarity i .S = (s.lane i).sPair.elim .normal fun x => (s.current.lanes.get x).tx := by
  unfold State.txPolarity
  cases (s.lane i).sPair <;> rfl

theorem sideRxPolarity_S (s : State) (i : LaneId) :
    s.sideRxPolarity i .S = (s.lane i).sPair.elim .normal fun x => (s.current.lanes.get x).rx := by
  unfold State.sideRxPolarity
  cases (s.lane i).sPair <;> rfl

/-! ## The frame (R80, R192) -/

/-- The main tap as the echo carries it (R61, R192). -/
theorem Setting.main_eq (x : Setting) :
    x.main = 48 - (x.pre.natAbs : Int) - (x.post1.natAbs : Int) - (x.post2.natAbs : Int) := by
  simp only [Setting.main, Setting.outer]
  push_cast
  ring

theorem Frame.eq_of_fields {f g : Frame} (session : f.session = g.session) (ready : f.ready = g.ready)
    (asked : (f.kind, f.tap, f.dir, f.preset, f.tag) = (g.kind, g.tap, g.dir, g.preset, g.tag))
    (replyTag : f.replyTag = g.replyTag) (replyOutcome : f.replyOutcome = g.replyOutcome) (echo : f.echo = g.echo) :
    f = g := by
  cases f
  cases g
  simp_all only [Prod.mk.injEq]

/-- In DETECT a segment has nothing to ask, to answer or to report (R32, R87, R91, R96). -/
theorem detectLaw_iff (h : Half) : h.detectLaw = true ↔ (h.seg.state = .detect → h.seg.partner = none ∧
    h.seg.synchronised = false ∧ h.seg.ownReady = false ∧ h.seg.partnerReady = false ∧ h.req = Requester.reset ∧
    h.resp = ⟨none, .none⟩ ∧ h.search = Search.reset) := decide_eq_true_iff

/-- Settles O60: the output by lane state, and the frame field by field. -/
theorem transmittersFollowTheLaneState : Obligations.TransmittersFollowTheLaneState := by
  intro s i d l h feed stands tx rx tapCode asked answer x sent
  have htx : s.txPolarity i d = tx d := by
    cases d
    · exact txPolarity_S s i
    · rfl
  have hrx : s.sideRxPolarity i feed = rx feed := by
    cases hf : feed
    · exact sideRxPolarity_S s i
    · rfl
  have hframe : h.frame = sent := by
    have hasked : (h.frame.kind, h.frame.tap, h.frame.dir, h.frame.preset, h.frame.tag) = asked := by
      simp only [asked, tapCode, Half.frame]
      generalize h.req.outstanding = o
      rcases o with _ | ⟨r, tag⟩
      · rfl
      · cases r with
        | step t _ => cases t <;> rfl
        | trial t _ => cases t <;> rfl
        | keep | back | preset _ => rfl
    have hreply : h.frame.replyTag = sent.replyTag ∧ h.frame.replyOutcome = sent.replyOutcome := by
      simp only [sent, answer, Half.frame]
      generalize h.resp.lastTag = tag
      cases tag with
      | none => exact ⟨rfl, rfl⟩
      | some tag => cases h.resp.outcome <;> exact ⟨rfl, rfl⟩
    have hecho : h.tx.echo = sent.echo := by
      simp only [TxUnit.echo, Setting.main_eq]
      rfl
    exact Frame.eq_of_fields rfl rfl hasked hreply.1 hreply.2 hecho
  refine ⟨fun hd hlaw => ?_, txOutput_resting, fun hs => ?_, fun hs ht hi => ?_, fun hs hc => ⟨fun hf => ?_, ?_⟩,
    fun hc line => retimed_not_carry hc line⟩
  · obtain ⟨-, -, hready, -, hreq, hresp, -⟩ := (detectLaw_iff h).mp hlaw hd
    simp only [← hframe, Half.frame, hready, hreq, hresp]
    exact ⟨trivial, rfl, rfl, rfl⟩
  · simp only [stands, not_or, ne_eq, not_not] at hs
    refine txOutput_parted ?_ hs.2
    cases d
    · rfl
    · exact absurd rfl hs.1
  · rw [← hframe, ← htx]
    exact txOutput_training hs ht hi
  · exact txOutput_starved hs hc hf
  · intro hr hf
    have out := txOutput_forwards hs hc hr hf
    rw [htx] at out
    refine ⟨out, fun line => ?_⟩
    rw [retimed_forward out, hrx]

end Sys2Proof.Machine
end

section
/-! SUPPORT. A lane takes a case of an apply (R9, R19, R56). -/

namespace Sys2Proof.Machine

theorem HoldSet.isEmpty_iff (h : HoldSet) : h.isEmpty = true ↔ h = ⟨false, false, false⟩ := by
  obtain ⟨a, b, c⟩ := h
  cases a <;> cases b <;> cases c <;> decide

/-- A lane in DOWN with an empty hold set trains fresh (R41, R52). -/
theorem Lane.goOn_free (cfg : LegConfig) {l : Lane} (hd : l.state = .down) (hh : l.hold = ⟨false, false, false⟩) :
    l.goOn cfg = l.trainFresh cfg := by
  unfold Lane.goOn
  exact if_pos ⟨hd, (HoldSet.isEmpty_iff _).mpr hh⟩

/-- A lane that is held stays (R41, R51). -/
theorem Lane.goOn_held (cfg : LegConfig) {l : Lane} (hh : l.hold ≠ ⟨false, false, false⟩) : l.goOn cfg = l := by
  unfold Lane.goOn
  exact if_neg fun h => hh ((HoldSet.isEmpty_iff _).mp h.2)

/-- What tracking leaves of the state beside the lanes. -/
theorem engineEvent_offLanes (s t : State) : (engineEvent s t).offLanes = t.offLanes := by
  rw [← State.quiet_offLanes, engineEvent_quiet, State.quiet_offLanes]

/-- A lane that moves without leaving CARRY moves alone (R56). -/
theorem moveLane_alone {s : State} {i : LaneId} {f : Lane → Lane}
    (h : ¬ ((s.lane i).state = .carry ∧ (f (s.lane i)).state ≠ .carry)) : s.moveLane i f = s.setLane i (f (s.lane i)) := by
  unfold State.moveLane
  exact if_neg h

/-- A lane outside CARRY moves alone. -/
theorem moveLane_onlyLane {s : State} {i : LaneId} (f : Lane → Lane) (h : (s.lane i).state ≠ .carry) :
    onlyLane s (s.moveLane i f) i := by
  rw [moveLane_alone fun c => h c.1]
  exact ⟨fun j hj => State.lane_setLane_ne s _ hj, rfl⟩

/-- A lane of leg `k` that leaves CARRY pulls its leg back (R56). -/
theorem moveLane_pulledBack {s : State} {i : LaneId} {f : Lane → Lane} {k : LegId} (h : (s.lane i).state = .carry)
    (hf : (f (s.lane i)).state ≠ .carry) (hk : s.legOf i = some k) : pulledBack s (s.moveLane i f) i k := by
  obtain ⟨-, -, hother, hleg⟩ := moveLane_eq s i f
  refine ⟨fun j hj hjk hjc => ?_, fun j hj hjn => ?_, ?_⟩
  · rw [hother j hj, if_pos ⟨h, hf, by simp [hk], by rw [hjk, hk], hjc⟩]
  · rw [hother j hj, if_neg]
    rintro ⟨-, -, -, hjk, hjc⟩
    rcases hjn with hn | hn
    · exact hn (hjk.trans hk)
    · exact hn hjc
  · rw [hleg, if_pos ⟨h, hf⟩, hk]

section TakeCase
variable {l : Lane} {c : ApplyCase} {rest : List ApplyCase} (cfg : LegConfig) (pair : Option SwitchLane)

/-- An unchanged case leaves the lane as it is (R19). -/
theorem Lane.takeCase_unchanged (h : l.cases = c :: rest) (hc : c.changed = false) :
    l.takeCase cfg pair = { l with cases := rest } := by
  unfold Lane.takeCase
  simp only [h, hc, Bool.false_eq_true, if_false]

/-- A changed case sends the lane through DOWN to its new pairs (R9, R19). -/
theorem Lane.takeCase_changed (h : l.cases = c :: rest) (hc : c.changed = true) :
    l.takeCase cfg pair = Lane.goOn cfg
      { l.enterDown with cases := rest, sPair := if rest.any (fun c => c.moves) then none else pair } := by
  unfold Lane.takeCase
  simp only [h, hc, if_true]

end TakeCase

/-- APPLY_LANE_CASE with a case to take (R20). -/
theorem applyLaneCase_eq {s : State} {i : LaneId} (h : (s.lane i).cases ≠ []) : exec (.applyLaneCase i) s =
    .next (engineEvent s (s.moveLane i fun l => l.takeCase (s.legConfig i) (s.route.get i).switchLane)) := by
  show execApplyLaneCase i s = _
  unfold execApplyLaneCase
  exact if_neg h

/-- Settles O26, by whether the case has changed the lane. -/
theorem applyCaseIsTaken : Obligations.ApplyCaseIsTaken := by
  intro s i c rest hcases
  have hexec := applyLaneCase_eq (s := s) (i := i) (by rw [hcases]; exact List.cons_ne_nil _ _)
  refine ⟨fun hc => ⟨_, hexec, ?_⟩, fun hc => ⟨_, hexec, ?_, ⟨fun hh => ?_, fun hh => ?_⟩, fun hs => ?_, fun k hs hk => ?_⟩⟩
  · have taken := Lane.takeCase_unchanged (s.legConfig i) (s.route.get i).switchLane hcases hc
    rw [engineEvent_quiet, moveLane_alone, taken]
    rw [taken]
    exact fun h => h.2 h.1
  · rw [engineEvent_offLanes]
    exact (moveLane_eq s i _).1.offLanes
  · rw [engineEvent_lane, (moveLane_eq s i _).2.1, Lane.takeCase_changed _ _ hcases hc]
    exact Lane.goOn_free _ rfl hh
  · rw [engineEvent_lane, (moveLane_eq s i _).2.1, Lane.takeCase_changed _ _ hcases hc]
    exact Lane.goOn_held _ hh
  · exact moveLane_onlyLane _ hs
  · refine moveLane_pulledBack hs ?_ hk
    rw [Lane.takeCase_changed _ _ hcases hc]
    rcases Lane.goOn_of_down (s.legConfig i) (l := { (s.lane i).enterDown with
      cases := rest, sPair := if rest.any (fun c => c.moves) then none else (s.route.get i).switchLane }) rfl with e | e
    · rw [e]
      nofun
    · rw [e]
      nofun

end Sys2Proof.Machine
end

section
/-! SUPPORT. A good image and a valid profile: what the load and the apply leave, lane by lane (R14 to R20, R187). -/

namespace Sys2Proof.Machine

/-! ## A lane leaves OFF (R18, R53, R77) -/

section Enable
variable (cfg : LegConfig) (pair : Option SwitchLane) (l : Lane)

theorem Lane.enable_held : l.enable cfg true pair =
    Lane.loadTx { l.enterDown with hold := ⟨false, false, true⟩, sPair := pair, cases := [] } cfg.sTx cfg.cTx :=
  Lane.goOn_held cfg nofun

theorem Lane.enable_free : l.enable cfg false pair = Lane.trainFresh cfg
    (Lane.loadTx { l.enterDown with hold := ⟨false, false, false⟩, sPair := pair, cases := [] } cfg.sTx cfg.cTx) :=
  Lane.goOn_free cfg rfl rfl

theorem Lane.enable_hold (line : Bool) : (l.enable cfg line pair).hold = ⟨false, false, line⟩ := by
  cases line
  · rw [Lane.enable_free]
    rfl
  · rw [Lane.enable_held]
    rfl

theorem Lane.enable_sPair (line : Bool) : (l.enable cfg line pair).sPair = pair := by
  cases line
  · rw [Lane.enable_free]
    rfl
  · rw [Lane.enable_held]
    rfl

/-- Both transmitters take the leg's start presets, held or not (R76, R77). -/
theorem Lane.enable_tx (line : Bool) (d : Side) :
    ((l.enable cfg line pair).half d).tx = ⟨presetSetting (cfg.txPreset d), []⟩ := by
  cases line
  · rw [Lane.enable_free]
    cases d <;> rfl
  · rw [Lane.enable_held]
    cases d <;> rfl

theorem Lane.enable_trainings : (l.enable cfg false pair).trainings = satInc counterMax l.trainings := by
  rw [Lane.enable_free]
  rfl

end Enable

/-! ## The end of a load -/

/-- A start preset of an image: its code if it names one, and the built-in value otherwise (R27). -/
theorem imagePreset_eq (code : Fin 8) (builtIn : Fin 4) :
    imagePreset code builtIn = if code.val < 4 then Fin.ofNat 4 code.val else builtIn := by
  revert code builtIn
  decide

theorem clamp_zero (hi n : Nat) : clamp 0 hi n = min hi n := Nat.zero_max _

section Loaded
variable (s : State) (img : FactoryImage) (p : Profile) (r : ApplyOutcome) (m : LegId)

/-- The part with the profile installed, before lanes and legs take what it gives them. -/
def State.withImage : State :=
  { (s.installConfig img).setCurrent p with pendingProfile := img.profile, applyOutcome := r, failingLeg := m }

theorem loadedWith_lane (i : LaneId) :
    (s.loadedWith img p r m).lane i = applyLane s (s.withImage img p r m) i (s.lane i) := takeProfile_lane _ _ i

theorem loadedWith_legState (k : LegId) : (s.loadedWith img p r m).legState.get k =
    legStateAfter (s.current.legs.get k).enabled (p.legs.get k).enabled (s.legState.get k) := takeProfile_legState _ _ k

theorem loadedWith_legs (k : LegId) : (s.loadedWith img p r m).legs.get k =
    if (installWiring img.wiring).present k then installLeg (img.legs.get k) else builtInLeg := Tab.get_ofFn _ _

end Loaded

/-- A load that finds a good image with a valid profile (R187). -/
theorem goodLoad_eq {s : State} {found : Option FactoryImage} {img : FactoryImage} (hf : found.getD s.store = img)
    (hp : s.part = .loading) (hl : s.loadRunning = true) (hc : imageCheck (imageBytes img) = img.check)
    (hw : wiringValid img.wiring = true) (hv : validate (installWiring img.wiring) img.profile = none) :
    exec (.imageLoadComplete found) s =
      .next (({ s with store := img } : State).loadedWith img img.profile .none 0) := by
  rw [execImageLoadComplete_running found hp hl, completeLoad_eq, hf]
  dsimp only
  rw [if_pos (imageCause_none hc hw)]
  exact congrArg Host.Outcome.next (loadGood_valid { s with store := img } hv)

/-- Settles O5: the load is `State.loadedWith`, and each lane takes what an apply from a profile without enabled legs
gives it. -/
theorem goodImageBringsThePartUp : Obligations.GoodImageBringsThePartUp := by
  intro found s img preset hlaw hp hl hc hw hv
  obtain ⟨hwas, -, -⟩ := loading_off hlaw (by rw [hp]; nofun)
  let u : State := { s with store := img }
  refine ⟨u.loadedWith img img.profile .none 0, goodLoad_eq rfl hp hl hc hw hv, rfl, rfl, rfl, rfl, rfl, rfl, rfl, rfl,
    rfl, rfl, rfl, ⟨rfl, rfl⟩, clamp_zero _ _, clamp_zero _ _, rfl, rfl, rfl, rfl, rfl, PolicyTable.fixed_policyLaw u _, rfl,
    rfl, fun k => ?_, fun k => ?_, fun i hi => ?_, fun i k hk hen => ?_⟩
  · rw [loadedWith_legs]
    have present : (installWiring img.wiring).present k = true ↔ k.val < img.wiring.legCount := decide_eq_true_iff
    simp only [present, installLeg, clamp_zero, imagePreset_eq]
    rfl
  · rw [loadedWith_legState]
    show legStateAfter (s.current.legs.get k).enabled _ _ = _
    rw [hwas k]
    rfl
  · rw [loadedWith_lane]
    cases hk : (u.withImage img img.profile .none 0).legOf i with
    | none => exact applyLane_none _ hk
    | some k =>
      exact applyLane_stays _ hk (hwas k) ((serves_some (s := u.loadedWith img img.profile .none 0) hk).symm.trans hi)
  · have lane := (loadedWith_lane u img img.profile .none 0 i).trans (applyLane_enables _ hk (hwas k) hen)
    have half : ∀ d, (u.loadedWith img img.profile .none 0).half i d =
        ((u.loadedWith img img.profile .none 0).lane i).half d := fun _ => rfl
    simp only [half, lane, Lane.enable_hold, Lane.enable_sPair, Lane.enable_tx, Lane.enable_state]
    refine ⟨rfl, rfl, rfl, rfl, fun hline => if_pos hline, fun hline => ?_⟩
    have off : (u.withImage img img.profile .none 0).legLines.get k = false := hline
    rw [off]
    exact ⟨rfl, Lane.enable_trainings _ _ _⟩

end Sys2Proof.Machine
end

section
/-! SUPPORT. An action that ignores the mask: what its write stop leaves of the port and of the part (R143, R147, R180), and
APPLY_PROFILE (R14, R16 to R20, R156). -/

namespace Sys2Proof.Machine

/-! ## States that agree but for bitmaps and one port's action -/

/-- Two states that agree but for the change bitmaps. -/
theorem eq_of_quiet {a b : State} (h : a.quiet = b.quiet) : a = { b with ports := a.ports } :=
  congrArg (fun u : State => { u with ports := a.ports }) h

theorem quiet_port (a : State) (p : PortId) : a.quiet.port p = { a.port p with bitmap := 0 } := Tab.get_mapIdx _ _ _

theorem port_of_quiet {a b : State} (h : a.quiet = b.quiet) (p : PortId) :
    a.port p = { b.port p with bitmap := (a.port p).bitmap } := by
  have e := congrArg (fun u : State => ({ u.port p with bitmap := (a.port p).bitmap } : Port)) h
  simpa only [quiet_port] using e

/-- Two states are the same beside port `p`'s action if they differ in the ports alone, and there in the bitmaps and in port
`p`'s action block, handed operations and status. -/
theorem offAction_congr {a b : State} {p : PortId} (h : a = { b with ports := a.ports })
    (hq : ∀ q, q ≠ p → ∃ f, a.port q = { b.port q with bitmap := f })
    (hp : ∃ x ops st f, a.port p = { b.port p with action := x, handed := ops, status := st, bitmap := f }) :
    a.quiet.offAction p = b.quiet.offAction p := by
  have ports : (a.quiet.offAction p).ports = (b.quiet.offAction p).ports := by
    apply Tab.ext_get
    intro q
    show (a.quiet.setPort p _).port q = (b.quiet.setPort p _).port q
    rw [State.port_setPort, State.port_setPort, quiet_port, quiet_port, quiet_port, quiet_port]
    split
    · obtain ⟨x, ops, st, f, e⟩ := hp
      rw [e]
    · next hne =>
      obtain ⟨f, e⟩ := hq q hne
      rw [e]
  have rest : a.quiet.offAction p = { b.quiet.offAction p with ports := (a.quiet.offAction p).ports } :=
    congrArg (fun u : State => { u with ports := (a.quiet.offAction p).ports }) h
  rw [rest, ports]

/-! ## The write stop of an action that ignores the mask -/

/-- Port `p` with the request fields of an action stored and its per-lane outcomes cleared (R143, R147). -/
def State.readied (s : State) (p : PortId) (code : Byte) (args : ActionArgs) : State :=
  s.setPort p { s.port p with action := ⟨code, args, (s.port p).action.overall, Tab.fill 8 .none⟩ }

theorem readied_port (s : State) (p q : PortId) (code : Byte) (args : ActionArgs) : (s.readied p code args).port q =
    if q = p then { s.port p with action := ⟨code, args, (s.port p).action.overall, Tab.fill 8 .none⟩ }
    else s.port q := State.port_setPort _ _ _ _

/-- The part after an action that ignores the mask, before the Change Tracker: `u` is what the action leaves of the part. -/
def State.partActed (u : State) (p : PortId) (o : Overall) : State :=
  u.setPort p { u.port p with
    action := { (u.port p).action with overall := o }
    status := (u.port p).status.afterWrite 0x30 ⟨2, 0, 0, none⟩ }

theorem issuePart_eq {s : State} {p : PortId} {a : Action} (args : ActionArgs) (hr : actionReady s p a.code)
    (ha : a.usesMask = false) :
    ∃ own, issueAction s p a args 0 = track s own
      ((partOperation (s.readied p (byte a.code) args) a).1.partActed p
        (partOperation (s.readied p (byte a.code) args) a).2) := by
  have hargs : argumentsOk a args = true := by
    cases a with
    | applyProfile | softReset | freeze | thaw => rfl
    | _ => cases ha
  have ready : ((s.setAction p fun x => x.requested (byte a.code) args).setAction p fun x =>
      { x with perLane := Tab.fill 8 .none }) = s.readied p (byte a.code) args := by
    simp only [State.setAction, State.readied, State.port_setPort_self, ActionBlock.requested]
    simp only [State.setPort, Tab.set_set]
  have close : ∀ (u : State) (o : Overall), (u.setAction p fun x => { x with overall := o }).setStatus p
      (fun st => st.afterWrite 0x30 ⟨2, 0, 0, none⟩) = u.partActed p o := by
    intro u o
    simp only [State.setStatus, State.setAction, State.partActed, State.port_setPort_self]
    simp only [State.setPort, Tab.set_set]
  refine ⟨some (p, s.setAction p fun x => x.requested (byte a.code) args), ?_⟩
  rw [issueAction_eq a args 0 hr hargs]
  dsimp only
  unfold State.runAction
  dsimp only
  rw [if_neg (by simp [ha]), ready, close]

/-- Where the action leaves the ports alone but for the bitmaps, its outcome is reported at the port, and everything else is
what the action leaves (R143, R147, R180). -/
theorem issuePart_reported {s u : State} {p : PortId} {a : Action} {args : ActionArgs} {o : Overall}
    (hr : actionReady s p a.code) (ha : a.usesMask = false)
    (ho : (partOperation (s.readied p (byte a.code) args) a).2 = o)
    (hu : (partOperation (s.readied p (byte a.code) args) a).1.quiet = u.quiet)
    (hports : u.ports = (s.readied p (byte a.code) args).ports) :
    ∃ t, issueAction s p a args 0 = t ∧ partReported s t p a.code args o ∧ t = { u with ports := t.ports } ∧
      (∀ q, q ≠ p → ∃ f, t.port q = { s.port q with bitmap := f }) ∧
      ∃ x ops st f, t.port p = { s.port p with action := x, handed := ops, status := st, bitmap := f } := by
  obtain ⟨own, e⟩ := issuePart_eq args hr ha
  refine ⟨_, rfl, ?_⟩
  rw [e, ho]
  have hv := eq_of_quiet hu
  generalize (partOperation (s.readied p (byte a.code) args) a).1 = v at hu hv
  have port : ∀ q, v.port q = { (s.readied p (byte a.code) args).port q with bitmap := (v.port q).bitmap } := by
    intro q
    have := port_of_quiet hu q
    rwa [show u.port q = (s.readied p (byte a.code) args).port q from congrArg (fun t => Tab.get t q) hports] at this
  have acted : ∀ q, (track s own (v.partActed p o)).port q = { (v.partActed p o).port q with
      bitmap := ((track s own (v.partActed p o)).port q).bitmap } := (track_eq s own (v.partActed p o)).2
  have atP : (v.partActed p o).port p = { v.port p with
      action := { (v.port p).action with overall := o }
      status := (v.port p).status.afterWrite 0x30 ⟨2, 0, 0, none⟩ } := State.port_setPort_self _ _ _
  have reported : (track s own (v.partActed p o)).port p = { s.port p with
      action := ⟨byte a.code, args, o, Tab.fill 8 .none⟩
      status := (s.port p).status.afterWrite 0x30 ⟨2, 0, 0, none⟩
      bitmap := ((track s own (v.partActed p o)).port p).bitmap } := by
    rw [acted p, atP, port p, readied_port, if_pos rfl]
  refine ⟨⟨congrArg Port.action reported, ?_⟩, ?_, fun q hq => ⟨((track s own (v.partActed p o)).port q).bitmap, ?_⟩,
    _, (s.port p).handed, _, _, reported⟩
  · rw [congrArg Port.status reported]
    simp only [PortStatus.afterWrite, raiseStatus, statusMax, Nat.add_zero, Option.map_none]
    rfl
  · exact congrArg (fun w : State => { w with ports := (track s own (v.partActed p o)).ports }) hv
  · rw [acted q, show (v.partActed p o).port q = v.port q from State.port_setPort_ne _ _ hq, port q, readied_port,
      if_neg hq]

/-! ## APPLY_PROFILE -/

theorem checkLeg_ne_done (w : Wiring) (p : Profile) (k : LegId) : checkLeg w p k ≠ some .done := by
  unfold checkLeg
  dsimp only
  repeat' split
  all_goals nofun

/-- The Route Map Unit refuses with a reason, never with DONE (R13). -/
theorem validate_ne_done {w : Wiring} {p : Profile} {r : ApplyOutcome} {k : LegId} (h : validate w p = some (r, k)) :
    r ≠ .done := by
  obtain ⟨m, -, e⟩ := List.exists_of_findSome?_eq_some h
  obtain ⟨r', hr', er⟩ := Option.map_eq_some_iff.mp e
  obtain ⟨rfl, rfl⟩ := Prod.mk.inj er
  exact fun hd => checkLeg_ne_done w p m (hd ▸ hr')

theorem apply_notRunning {s : State} (h : s.part ≠ .running) :
    s.apply = ({ s with applyOutcome := .imageFault, failingLeg := 0 }, .imageFault) := by
  unfold State.apply
  split
  · next e => exact absurd e h
  · rfl

theorem apply_invalid {s : State} {r : ApplyOutcome} {k : LegId} (hp : s.part = .running)
    (h : validate s.wiring s.pendingProfile = some (r, k)) :
    s.apply = ({ s with applyOutcome := r, failingLeg := k }, r) := by
  unfold State.apply
  simp only [hp, h]

theorem apply_valid {s : State} (hp : s.part = .running) (h : validate s.wiring s.pendingProfile = none) :
    s.apply = (s.appliedWith s.pendingProfile, .done) := by
  unfold State.apply
  simp only [hp, h]
  rfl

theorem partOperation_refused {s u : State} {r : ApplyOutcome} (h : s.apply = (u, r)) (hr : r ≠ .done) :
    partOperation s .applyProfile = (u, .reason r) := by
  simp only [partOperation, h]
  cases r with
  | done => exact absurd rfl hr
  | _ => rfl

theorem partOperation_applied {s u : State} (h : s.apply = (u, .done)) :
    partOperation s .applyProfile = (markApply s u, .done) := by
  simp only [partOperation, h]

theorem appliedWith_lane (s : State) (p : Profile) (i : LaneId) : (s.appliedWith p).lane i =
    applyLane s { s.setCurrent p with applyOutcome := .done, failingLeg := 0 } i (s.lane i) := takeProfile_lane _ _ i

theorem appliedWith_legState (s : State) (p : Profile) (k : LegId) : (s.appliedWith p).legState.get k =
    legStateAfter (s.current.legs.get k).enabled (p.legs.get k).enabled (s.legState.get k) := takeProfile_legState _ _ k

theorem applyProfile_eq (args : ActionArgs) (s : State) :
    exec (.applyProfile 0 args) s = .next (issueAction s 0 .applyProfile args 0) := rfl

/-- An APPLY_PROFILE that is refused leaves the reason and nothing else (R14, R156, R158). -/
theorem applyProfile_refused {s : State} {args : ActionArgs} {r : ApplyOutcome} {k : LegId} (hr : actionReady s 0 13)
    (h : (s.readied 0 (byte 13) args).apply =
      ({ s.readied 0 (byte 13) args with applyOutcome := r, failingLeg := k }, r)) (hne : r ≠ .done) :
    let t := issueAction s 0 .applyProfile args 0
    partReported s t 0 13 args (.reason r) ∧
      t.quiet.offAction 0 = ({ s with applyOutcome := r, failingLeg := k }.quiet).offAction 0 := by
  have op : partOperation (s.readied 0 (byte Action.applyProfile.code) args) .applyProfile = _ :=
    partOperation_refused h hne
  obtain ⟨t, ht, reported, frame, hq, hp⟩ := issuePart_reported (a := .applyProfile) (args := args)
    (u := { s.readied 0 (byte 13) args with applyOutcome := r, failingLeg := k }) hr rfl (congrArg Prod.snd op)
    (congrArg (fun x => State.quiet x.1) op) rfl
  rw [ht]
  refine ⟨reported, offAction_congr ?_ hq hp⟩
  rw [frame]
  rfl

/-- What a valid apply leaves of a lane of leg `k` (R17 to R20). -/
def LaneApplied (s t : State) (i : LaneId) (k : LegId) : Prop :=
  let was := (s.current.legs.get k).enabled
  let now := (s.pendingProfile.legs.get k).enabled
  (was = true → now = false → t.lane i = (s.lane i).enterOff) ∧
  (was = false → now = false → t.lane i = s.lane i) ∧
  (was = false → now = true → (t.lane i).hold = ⟨false, false, s.legLines.get k⟩ ∧
    (t.lane i).sPair = (t.route.get i).switchLane ∧
    (t.lane i).state = if s.legLines.get k then .down else .train) ∧
  (was = true → now = true → ∃ c : ApplyCase,
    (c.moves = true ↔ (s.route.get i).switchLane ≠ (t.route.get i).switchLane) ∧
    (c.changed = true ↔ ((s.route.get i).switchLane ≠ (t.route.get i).switchLane ∨
      (s.route.get i).sPolarity ≠ (t.route.get i).sPolarity ∨
      (s.current.legs.get k).order ≠ (s.pendingProfile.legs.get k).order)) ∧
    t.lane i = { s.lane i with
      cases := (s.lane i).cases ++ [c], sPair := if c.moves then none else (s.lane i).sPair })

theorem handedCase_moves (before s : State) (i : LaneId) (k : LegId) : (handedCase before s i k).moves = true ↔
    (before.route.get i).switchLane ≠ (s.route.get i).switchLane := decide_eq_true_iff

theorem handedCase_changed (before s : State) (i : LaneId) (k : LegId) : (handedCase before s i k).changed = true ↔
    ((before.route.get i).switchLane ≠ (s.route.get i).switchLane ∨
      (before.route.get i).sPolarity ≠ (s.route.get i).sPolarity ∨
      (before.current.legs.get k).order ≠ (s.current.legs.get k).order) := by
  simp only [handedCase, Bool.or_eq_true, decide_eq_true_eq, or_assoc]

/-- The legs of the lanes are the wiring's, so that a new profile leaves them (R10, R12). -/
theorem setCurrent_legOf {s : State} (h : s.routeLaw) (p : Profile) (i : LaneId) :
    (s.setCurrent p).legOf i = s.legOf i :=
  (legOf_eq_place (s := s.setCurrent p) ⟨rfl, rfl⟩ i).trans (legOf_eq_place h i).symm

theorem appliedWith_laneApplied {s : State} (h : s.routeLaw) {i : LaneId} {k : LegId} (hk : s.legOf i = some k) :
    LaneApplied s (s.appliedWith s.pendingProfile) i k := by
  have hk' : State.legOf { s.setCurrent s.pendingProfile with applyOutcome := .done, failingLeg := 0 } i = some k :=
    (setCurrent_legOf h _ i).trans hk
  refine ⟨fun was now => ?_, fun was now => ?_, fun was now => ?_, fun was now => ?_⟩
  · rw [appliedWith_lane, applyLane_disables _ hk' was now]
  · rw [appliedWith_lane, applyLane_stays _ hk' was now]
  · rw [appliedWith_lane, applyLane_enables _ hk' was now, Lane.enable_hold, Lane.enable_sPair, Lane.enable_state]
    exact ⟨rfl, rfl, rfl⟩
  · rw [appliedWith_lane, applyLane_goesOn _ hk' was now]
    exact ⟨_, handedCase_moves _ _ i k, handedCase_changed _ _ i k, rfl⟩

/-- Settles O45, by what the Route Map Unit answers. -/
theorem applyProfileTakesOrRefusesWhole : Obligations.ApplyProfileTakesOrRefusesWhole := by
  intro args s hr hroute
  refine ⟨_, applyProfile_eq args s, fun hp => ?_, fun r k hp hv => ?_, fun hp hv => ?_⟩
  · exact applyProfile_refused hr (apply_notRunning (s := s.readied 0 (byte 13) args) (by
      show s.part ≠ _
      rw [hp]
      nofun)) nofun
  · exact applyProfile_refused hr (apply_invalid (s := s.readied 0 (byte 13) args) hp hv) (validate_ne_done hv)
  · have op : partOperation (s.readied 0 (byte Action.applyProfile.code) args) .applyProfile = _ :=
      partOperation_applied (apply_valid (s := s.readied 0 (byte 13) args) hp hv)
    obtain ⟨t, ht, reported, frame, hq, hport⟩ := issuePart_reported (a := .applyProfile) (args := args)
      (u := (s.readied 0 (byte 13) args).appliedWith s.pendingProfile) hr rfl (congrArg Prod.snd op)
      ((congrArg (fun x => State.quiet x.1) op).trans (markApply_eq _ _).1) rfl
    rw [ht]
    have lane : ∀ i, t.lane i = (s.appliedWith s.pendingProfile).lane i := fun i => by
      rw [frame]
      exact (appliedWith_lane (s.readied 0 (byte 13) args) s.pendingProfile i).trans (appliedWith_lane s _ i).symm
    have route : t.route = (s.appliedWith s.pendingProfile).route := by rw [frame]; rfl
    refine ⟨reported, by rw [frame]; rfl, by rw [frame]; rfl, by rw [frame]; rfl, ?_, ?_, fun i hi => ?_, fun i k hk => ?_,
      fun k => ?_⟩
    · rw [frame]
      exact ⟨rfl, rfl⟩
    · refine offAction_congr (a := { t with lanes := Tab.fill 8 .reset, legState := Tab.fill 4 .disabled })
        (b := { s with
          lanes := Tab.fill 8 .reset, legState := Tab.fill 4 .disabled, current := t.current, route := t.route,
          inverse := t.inverse, applyOutcome := .done, failingLeg := 0 }) ?_ hq hport
      rw [frame]
      rfl
    · rw [lane, appliedWith_lane, applyLane_none]
      exact (setCurrent_legOf hroute _ i).trans hi
    · have applied := appliedWith_laneApplied hroute hk
      unfold LaneApplied at applied
      rwa [← lane, ← route] at applied
    · have leg : t.legState.get k = (s.appliedWith s.pendingProfile).legState.get k := by
        rw [frame]
        exact (appliedWith_legState (s.readied 0 (byte 13) args) s.pendingProfile k).trans (appliedWith_legState s _ k).symm
      rw [leg, appliedWith_legState]
      unfold legStateAfter
      cases (s.pendingProfile.legs.get k).enabled <;> rfl

end Sys2Proof.Machine
end

section
/-! SUPPORT. A write of one field group: what its write stop leaves where the group is stored, refused or busy (R167, R177,
R180). -/

namespace Sys2Proof.Machine

/-! ## The groups of a record -/

theorem groupAt_of_groups {s : State} {p : PortId} {r : Record} {gs : List FieldGroup} {off : Nat} {g : FieldGroup}
    (h : (record s p r).map Prod.fst = gs) (hg : gs[off]? = some g) : groupAt s p r off = g := by
  rw [← h, List.getElem?_map, Option.map_eq_some_iff] at hg
  obtain ⟨x, hx, rfl⟩ := hg
  unfold groupAt
  rw [hx]
  rfl

theorem inGroup_groups (g : FieldGroup) (bs : List Byte) : (inGroup g bs).map Prod.fst = List.replicate bs.length g := by
  unfold inGroup
  rw [List.map_map]
  exact List.map_const' ..

theorem blank_groups (n : Nat) : (blank n).map Prod.fst = List.replicate n .empty := List.map_replicate ..

theorem partRecord_groups (s : State) (p : PortId) : (record s p .part).map Prod.fst =
    List.replicate 21 .ident ++ List.replicate 3 .pstate ++ [.hysteresis] ++ List.replicate 3 .watchParams := by
  have ident : (twoBytes Config.vendorCode.toNat ++ twoBytes Config.partCode.toNat ++ s.serial.list ++
      [s.lengthCode]).length = 21 := by
    simp [twoBytes, s.serial.length_eq]
  show (partRecord s).map Prod.fst = _
  simp only [partRecord, List.map_append, inGroup_groups, ident]
  rfl

theorem legRecord_groups (s : State) (p : PortId) (k : LegId) : (record s p (.leg k)).map Prod.fst =
    [.legState, .legState, .threshold, .threshold, .retrain, .presets, .presets, .presets, .presets, .busy] := rfl

theorem profileRecord_groups (s : State) (p : PortId) : (record s p .profile).map Prod.fst =
    List.replicate 24 .profile ++ List.replicate 2 .applyOutcome := by
  show (profileRecord s).map Prod.fst = _
  simp only [profileRecord, List.map_append, inGroup_groups]
  rfl

theorem entryBytes_length {n : Nat} (x : BitVec n) : (entryBytes x).length = n := by
  simp [entryBytes]

theorem policyGroupsRecord_groups (s : State) (p : PortId) : (record s p .policyGroups).map Prod.fst =
    List.replicate 20 .readEntries ++ List.replicate 12 .empty ++ List.replicate 20 .writeEntries := by
  show (policyGroupsRecord s).map Prod.fst = _
  simp only [policyGroupsRecord, List.map_append, inGroup_groups, blank_groups, entryBytes_length]

theorem policyActionsRecord_groups (s : State) (p : PortId) : (record s p .policyActions).map Prod.fst =
    List.replicate 14 .actionEntries ++ List.replicate 2 .empty ++ [.farEntry] := by
  show (policyActionsRecord s).map Prod.fst = _
  simp only [policyActionsRecord, List.map_append, inGroup_groups, blank_groups, entryBytes_length]
  rfl

/-! ## The blocks of a view -/

theorem portLeg_legPort (k : LegId) : portLeg (legPort k) = some k := by
  revert k
  decide

theorem resolve_leg_switch (s : State) (k : LegId) : resolve s 0 (1 + k.val) = some (.leg k) := by
  fin_cases k <;> rfl

theorem resolve_leg_own (s : State) (k : LegId) : resolve s (legPort k) 1 = some (.leg k) := by
  unfold resolve
  rw [portLeg_legPort]
  rfl

/-! ## The policy's answer -/

/-- M0 may write every group that is not read-only (R174, R175). -/
theorem judgeWrite_switch (s : State) (r : Record) {g : FieldGroup} (h : g.readOnly = false) :
    judgeWrite s 0 r g = .allow := by
  unfold judgeWrite fixedRefuses
  rw [h]
  rfl

/-- A leg's host is answered by the LEG busy flag and the policy table on its leg record (R177, R178). -/
theorem judgeWrite_leg (s : State) (k m : LegId) {g : FieldGroup} {n : Nat} (hro : g.readOnly = false)
    (hb : g ≠ .busy) (hn : g.position = some n) : judgeWrite s (legPort k) (.leg m) g =
      if (s.busy.get k).leg then .busy else if s.policy.write.getLsbD n then .allow else .refused := by
  have hp : legPort k ≠ 0 := by
    revert k
    decide
  have hc : classBusy s (legPort k) (.leg m) = (s.busy.get k).leg := by
    unfold classBusy
    rw [portLeg_legPort]
  have hf : fixedRefuses (legPort k) (.leg m) g = false := by
    simp [fixedRefuses, hro, hb]
  unfold judgeWrite mayWrite
  rw [hc, hf, hn, if_neg hp]
  rfl

/-! ## The write stop -/

/-- The port's write part is over, with the given status, and the change bitmaps are set aside. -/
def State.writeEnded (u : State) (p : PortId) (y : PortStatus) : State :=
  (u.setPort p { u.port p with phase := .idle, buffer := ⟨none, []⟩, line := .released, status := y }).quiet

/-- A write part under way at port `p` holds bytes of one group `g` of record `r` alone, the first at offset `off`. -/
structure OneGroup (s : State) (p : PortId) (block : Nat) (r : Record) (g : FieldGroup) (off : Nat) : Prop where
  writing : (s.port p).phase = .writing
  settled : (s.port p).handed = []
  inBlock : (s.port p).buffer.block = some block
  first : ∃ x rest, (s.port p).buffer.entries = (off, x) :: rest
  mapped : resolve s p block = some r
  group : ∀ e ∈ (s.port p).buffer.entries, groupAt s p r e.1 = g
  noAction : r ≠ .action

theorem quiet_setPort_congr {a b : State} {p : PortId} {x y : Port} (h : a.quiet = b.quiet)
    (hx : ({ x with bitmap := 0 } : Port) = { y with bitmap := 0 }) : (a.setPort p x).quiet = (b.setPort p y).quiet := by
  have ports : (a.setPort p x).quiet.ports = (b.setPort p y).quiet.ports := by
    apply Tab.ext_get
    intro q
    show (a.setPort p x).quiet.port q = (b.setPort p y).quiet.port q
    rw [quiet_port, quiet_port, State.port_setPort, State.port_setPort]
    split
    · exact hx
    · rw [← quiet_port, ← quiet_port, h]
  have rest : (a.setPort p x).quiet = { (b.setPort p y).quiet with ports := (a.setPort p x).quiet.ports } :=
    congrArg (fun u : State => { u with ports := (a.setPort p x).quiet.ports }) h
  rw [rest, ports]

/-- REGISTER_WRITE in a write part ends it (R167). -/
theorem registerWrite_eq {s : State} {p : PortId} (later : BitVec 8) (h : (s.port p).phase = .writing) :
    exec (.registerWrite p later) s = .next (endWritePart s p later) := by
  show execRegisterWrite p later s = _
  unfold execRegisterWrite
  rw [h]
  rfl

section OneGroup
variable {s : State} {p : PortId} {block : Nat} {r : Record} {g : FieldGroup} {off : Nat}

theorem OneGroup.groups (h : OneGroup s p block r g off) : writtenGroups s p r (s.port p).buffer = [g] := by
  obtain ⟨x, rest, he⟩ := h.first
  have all := h.group
  unfold writtenGroups
  rw [he] at all ⊢
  have tail : (rest.map fun e => groupAt s p r e.1).filter (fun y => !(y == g)) = [] := by
    rw [List.filter_eq_nil_iff]
    intro y hy
    obtain ⟨e, he, rfl⟩ := List.mem_map.mp hy
    simp [all e (List.mem_cons_of_mem _ he)]
  rw [List.map_cons, all _ List.mem_cons_self, List.eraseDups_cons, tail]
  rfl

/-- What the write part leaves, from what it stores and what it counts. -/
theorem OneGroup.ended (h : OneGroup s p block r g off) (later : BitVec 8) {mid : State} {t : Tally}
    (hmid : storeGroups s p r (s.port p).buffer = mid) (ht : tallyGroups s p r (s.port p).buffer = t) :
    (endWritePart s p later).quiet = mid.writeEnded p ((mid.port p).status.afterWrite block t) := by
  have noCode : writesCode s p r (s.port p).buffer = false := by
    unfold writesCode
    rw [decide_eq_false h.noAction]
    rfl
  have stop : writeStop s p block (s.port p).buffer later =
      track s (some (p, mid)) (mid.setStatus p fun st => st.afterWrite block t) := by
    unfold writeStop
    rw [settleHanded_nil h.settled]
    have effect : writeEffect s p block (s.port p).buffer later =
        (mid, mid.setStatus p fun st => st.afterWrite block t) := by
      unfold writeEffect
      rw [h.mapped]
      dsimp only
      rw [noCode, hmid, ht]
      rfl
    dsimp only
    rw [effect]
  unfold endWritePart
  dsimp only
  rw [h.inBlock]
  dsimp only
  rw [stop]
  unfold State.writeEnded
  have set : ∀ x, ((mid.setStatus p fun st => st.afterWrite block t).setPort p x) = mid.setPort p x := fun x => by
    simp only [State.setStatus, State.setPort, Tab.set_set]
  have port := (track_eq s (some (p, mid)) (mid.setStatus p fun st => st.afterWrite block t)).2 p
  rw [← set]
  refine quiet_setPort_congr (track_quiet _ _ _) ?_
  rw [port, State.setStatus, State.port_setPort_self]
  rfl

theorem OneGroup.stored_if (h : OneGroup s p block r g off) :
    storeGroups s p r (s.port p).buffer =
      if groupAnswer s p r (s.port p).buffer g = .allow then storeGroup p r (s.port p).buffer s g else s := by
  unfold storeGroups
  rw [h.groups]
  by_cases ha : groupAnswer s p r (s.port p).buffer g = .allow
  · simp [ha]
  · simp [ha]

theorem OneGroup.tally (h : OneGroup s p block r g off) : tallyGroups s p r (s.port p).buffer =
    match groupAnswer s p r (s.port p).buffer g with
    | .allow => ⟨1, 0, 0, none⟩
    | .refused => ⟨0, 1, 0, some off⟩
    | .busy => ⟨0, 0, 1, some off⟩ := by
  obtain ⟨x, rest, he⟩ := h.first
  have find : ∀ a, groupAnswer s p r (s.port p).buffer g = a → ((s.port p).buffer.entries.find? fun e =>
      decide (groupAnswer s p r (s.port p).buffer (groupAt s p r e.1) ≠ .allow)).map Prod.fst =
      if a = .allow then none else some off := by
    rintro a rfl
    split
    · next ha =>
      rw [Option.map_eq_none_iff, List.find?_eq_none]
      intro e hm
      simp [h.group e hm, ha]
    · next ha =>
      have hg := h.group (off, x) (by rw [he]; exact List.mem_cons_self)
      rw [he, List.find?_cons_of_pos]
      · rfl
      · rw [hg]
        exact decide_eq_true ha
  unfold tallyGroups
  rw [find _ rfl, h.groups]
  cases ha : groupAnswer s p r (s.port p).buffer g <;> simp [ha]

/-- The group is stored (R167, R180). -/
theorem OneGroup.allowed (h : OneGroup s p block r g off) (later : BitVec 8)
    (ha : groupAnswer s p r (s.port p).buffer g = .allow) {u : State}
    (hu : storeGroup p r (s.port p).buffer s g = u) (hport : u.port p = s.port p) :
    (endWritePart s p later).quiet = u.writeEnded p { (s.port p).status with
      last := .ok, refused := min 255 (s.port p).status.refused, busy := min 255 (s.port p).status.busy,
      discarded := none } := by
  rw [h.ended later (h.stored_if.trans ((if_pos ha).trans hu)) h.tally, ha, hport]
  rfl

/-- The group is refused (R177, R180). -/
theorem OneGroup.refused (h : OneGroup s p block r g off) (later : BitVec 8)
    (ha : groupAnswer s p r (s.port p).buffer g = .refused) :
    (endWritePart s p later).quiet = s.writeEnded p { (s.port p).status with
      last := .refused, refused := min 255 ((s.port p).status.refused + 1), busy := min 255 (s.port p).status.busy,
      discarded := some (block * 64 + off) } := by
  rw [h.ended later (h.stored_if.trans (if_neg (by rw [ha]; nofun))) h.tally, ha]
  rfl

/-- The group's class is busy (R178, R180). -/
theorem OneGroup.busy (h : OneGroup s p block r g off) (later : BitVec 8)
    (ha : groupAnswer s p r (s.port p).buffer g = .busy) :
    (endWritePart s p later).quiet = s.writeEnded p { (s.port p).status with
      last := .busy, busy := min 255 ((s.port p).status.busy + 1), refused := min 255 (s.port p).status.refused,
      discarded := some (block * 64 + off) } := by
  rw [h.ended later (h.stored_if.trans (if_neg (by rw [ha]; nofun))) h.tally, ha]
  rfl

end OneGroup

/-! ## Written fields -/

theorem written_eq_elim {α : Type} (old : α) (f : Byte → α) (b : Option Byte) : written old f b = b.elim old f := by
  cases b <;> rfl

theorem flagOf_eq (v : Byte) : flagOf v = decide (v ≠ 0) := by
  unfold flagOf
  rw [decide_eq_decide, ne_eq, ne_eq, not_iff_not]
  exact ⟨fun h => BitVec.eq_of_toNat_eq h, fun h => by rw [h]; rfl⟩

theorem written_flag (old : Bool) (b : Option Byte) : written old flagOf b = b.elim old fun v => decide (v ≠ 0) := by
  rw [written_eq_elim]
  cases b with
  | none => rfl
  | some v => exact flagOf_eq v

/-- The group of a leg record at an offset, on either port that maps the record. -/
theorem legGroup_oneGroup {s : State} {p : PortId} {k : LegId} {block off : Nat} {g : FieldGroup} {x : Byte}
    {rest : List (Nat × Byte)} (hw : (s.port p).phase = .writing) (hh : (s.port p).handed = [])
    (hb : (s.port p).buffer.block = some block) (he : (s.port p).buffer.entries = (off, x) :: rest)
    (hm : resolve s p block = some (.leg k))
    (hg : ∀ e ∈ (s.port p).buffer.entries, [FieldGroup.legState, .legState, .threshold, .threshold, .retrain, .presets,
      .presets, .presets, .presets, .busy][e.1]? = some g) : OneGroup s p block (.leg k) g off :=
  ⟨hw, hh, hb, ⟨x, rest, he⟩, hm, fun e hmem => groupAt_of_groups (legRecord_groups s p k) (hg e hmem), nofun⟩

/-- A leg record's block, at M0 and at the leg's own port (R169, R170). -/
theorem resolve_leg {s : State} {p : PortId} {k : LegId} (h : p = 0 ∨ p = legPort k) :
    resolve s p (if p = 0 then 1 + k.val else 1) = some (.leg k) := by
  rcases h with rfl | rfl
  · exact resolve_leg_switch s k
  · rw [if_neg (by revert k; decide)]
    exact resolve_leg_own s k

/-- What the part answers to a write of a writable group of a leg record, by whether M0 or the leg writes it. -/
theorem judgeWrite_leg_allow {s : State} {p : PortId} {k : LegId} {g : FieldGroup} {n : Nat} (hro : g.readOnly = false)
    (hb : g ≠ .busy) (hn : g.position = some n)
    (h : p = 0 ∨ (p = legPort k ∧ (s.busy.get k).leg = false ∧ s.policy.write.getLsbD n = true)) :
    judgeWrite s p (.leg k) g = .allow := by
  rcases h with rfl | ⟨rfl, hf, hw⟩
  · exact judgeWrite_switch s _ hro
  · rw [judgeWrite_leg s k k hro hb hn, hf, hw]
    rfl

/-- Settles O33, by the policy's answer to the THRESHOLD group. -/
theorem thresholdWriteIsJudgedAndStored : Obligations.ThresholdWriteIsJudgedAndStored := by
  intro p later s k off x rest block b c ended st hp hw hh hb hoff
  have one : OneGroup s p block (.leg k) .threshold off := by
    refine legGroup_oneGroup (x := x) (rest := rest) hw hh (congrArg HoldingBuffer.block hb)
      (congrArg HoldingBuffer.entries hb) (resolve_leg hp) fun e he => ?_
    rcases hoff e he with h | h <;> rw [h] <;> rfl
  have own : ∀ a, judgeWrite s p (.leg k) .threshold = a → groupAnswer s p (.leg k) b .threshold = a := by
    rintro a rfl
    unfold groupAnswer
    split
    · next h => rw [h]; rfl
    · rfl
  have legAnswer : p ≠ 0 → judgeWrite s p (.leg k) .threshold =
      if (s.busy.get k).leg then .busy else if s.policy.write.getLsbD 1 then .allow else .refused := fun h0 => by
    rw [hp.resolve_left h0]
    exact judgeWrite_leg s k k rfl nofun rfl
  refine ⟨_, registerWrite_eq later hw, fun hst => ?_, fun h0 hbusy => ?_, fun h0 hbusy hpol => ?_⟩
  · refine one.allowed later (own _ ?_) ?_ rfl
    · rcases hst with h | ⟨h1, h2⟩
      · exact judgeWrite_leg_allow rfl nofun rfl (.inl h)
      · exact judgeWrite_leg_allow rfl nofun rfl (hp.imp_right fun h => ⟨h, h1, h2⟩)
    · show s.setLeg k _ = _
      rw [written_flag, written_eq_elim]
      simp only [clamp_zero]
      rfl
  · have hblock : block = 1 := if_neg h0
    have e := one.busy later (own _ (by rw [legAnswer h0, hbusy]; rfl))
    rwa [hblock] at e
  · have hblock : block = 1 := if_neg h0
    have e := one.refused later (own _ (by rw [legAnswer h0, hbusy, hpol]; rfl))
    rwa [hblock] at e

end Sys2Proof.Machine
end

section
/-! SUPPORT. What REGISTER_WRITE stores of each group of configuration (R7, R25, R26, R112, R131, R176, R178, R189). -/

namespace Sys2Proof.Machine

/-! ## Fields after a write -/

theorem presetAfter_eq (old : Fin 4) (b : Option Byte) :
    presetAfter old b = b.elim old fun v => Fin.ofNat 4 (v.toNat % 8) := by
  cases b <;> rfl

theorem badPreset_eq (b : Option Byte) : badPreset b = b.any fun v => decide (4 ≤ v.toNat % 8) := by
  cases b <;> rfl

/-- The start presets are refused whole if one of the four bytes is a code from 4 to 7 (R26). -/
theorem ownerRefuses_presets (b : HoldingBuffer) : ownerRefuses .presets b = true ↔
    ∃ o ∈ [5, 6, 7, 8], (b.byteAt o).any (fun v => decide (4 ≤ v.toNat % 8)) = true := by
  simp only [ownerRefuses, badPreset_eq, Bool.or_eq_true, List.mem_cons, List.not_mem_nil, or_false, exists_eq_or_imp,
    exists_eq_left, or_assoc]

/-- A flag of a written word: its byte, or what it was (R189). -/
theorem writtenFlags_getLsbD {n : Nat} (old : BitVec n) (b : HoldingBuffer) (base : Nat) (i : Fin n) :
    (writtenFlags old b base).getLsbD i.val =
      (b.byteAt (base + i.val)).elim (old.getLsbD i.val) fun v => decide (v ≠ 0) := by
  have bits := packBits_flags
    ((List.range n).map fun m => written (old.getLsbD m) flagOf (b.byteAt (base + m))) i.val
  rw [List.map_map] at bits
  simp only [writtenFlags, BitVec.getLsbD_ofNat, i.isLt, decide_true, Bool.true_and]
  refine bits.trans ?_
  rw [← written_flag, List.getD_eq_getElem?_getD, List.getElem?_map, List.getElem?_range i.isLt]
  rfl

/-- Masking a word that has no bit beyond the mask changes nothing. -/
theorem and_of_and_not_eq_zero {n : Nat} {x m : BitVec n} (h : x &&& ~~~m = 0) : x &&& m = x := by
  ext i hi
  have hb : (x &&& ~~~m)[i] = (0 : BitVec n)[i] := by rw [h]
  rw [BitVec.getElem_and, BitVec.getElem_not] at hb
  rw [BitVec.getElem_and]
  cases hx : x[i] with
  | false => rfl
  | true => simpa [hx] using hb

theorem writeConfigurable_getLsbD (n : Fin 20) :
    writeConfigurable.getLsbD n.val = decide (n ∈ [1, 2, 3, 14, 17, 18, 19]) := by
  revert n
  decide

theorem actionConfigurable_getLsbD (n : Fin 14) : actionConfigurable.getLsbD n.val = decide (n.val < 12) := by
  revert n
  decide

theorem writtenLeg_eq (old : LegProfile) (b : HoldingBuffer) (k : LegId) : writtenLeg old b k =
    { enabled := (b.byteAt (4 * k.val)).elim old.enabled fun v => decide (v ≠ 0)
      base := (b.byteAt (4 * k.val + 1)).elim old.base fun v => Fin.ofNat 16 v.toNat
      start := (b.byteAt (4 * k.val + 2)).elim old.start fun v => Fin.ofNat 8 v.toNat
      order := (b.byteAt (4 * k.val + 3)).elim old.order fun v => if v = 0 then .linear else .interleaved } := by
  have base : ∀ v : Byte, Fin.ofNat 16 (lowBits 4 v) = Fin.ofNat 16 v.toNat := fun v =>
    Fin.ext (Nat.mod_mod_of_dvd _ (by decide))
  have start : ∀ v : Byte, Fin.ofNat 8 (lowBits 3 v) = Fin.ofNat 8 v.toNat := fun v =>
    Fin.ext (Nat.mod_mod_of_dvd _ (by decide))
  have order : ∀ v : Byte, (if flagOf v = true then LaneOrder.interleaved else .linear) =
      if v = 0 then .linear else .interleaved := by
    intro v
    rw [flagOf_eq]
    by_cases h : v = 0 <;> simp [h]
  simp only [writtenLeg, written_flag]
  simp only [written_eq_elim, base, start, order]

/-! ## What a group stores -/

section Store
variable (s : State) (b : HoldingBuffer) (k : LegId)

theorem storeGroup_profile : storeGroup 0 .profile b s .profile = { s with pendingProfile :=
    { legs := Tab.ofFn fun m =>
        { enabled := (b.byteAt (4 * m.val)).elim (s.pendingProfile.legs.get m).enabled fun v => decide (v ≠ 0)
          base := (b.byteAt (4 * m.val + 1)).elim (s.pendingProfile.legs.get m).base fun v => Fin.ofNat 16 v.toNat
          start := (b.byteAt (4 * m.val + 2)).elim (s.pendingProfile.legs.get m).start fun v => Fin.ofNat 8 v.toNat
          order := (b.byteAt (4 * m.val + 3)).elim (s.pendingProfile.legs.get m).order fun v =>
            if v = 0 then .linear else .interleaved }
      lanes := Tab.ofFn fun m => (b.byteAt (16 + m.val)).elim (s.pendingProfile.lanes.get m) fun v =>
        ⟨if v.getLsbD 0 then .inverted else .normal, if v.getLsbD 1 then .inverted else .normal⟩ } } := by
  simp only [storeGroup, Tab.mapIdx, writtenLeg_eq, writtenPolarity, written_eq_elim]
  rfl

theorem storeGroup_farEntry (r : Record) : storeGroup 0 r b s .farEntry =
    { s with policy := { s.policy with far := (b.byteAt 16).elim s.policy.far fun v => decide (v ≠ 0) } } := by
  simp only [storeGroup, written_flag]

theorem storeGroup_hysteresis (r : Record) : storeGroup 0 r b s .hysteresis =
    { s with hysteresis := (b.byteAt 24).elim s.hysteresis fun v => min 7 v.toNat } := by
  simp only [storeGroup, written_eq_elim, clamp_zero]

theorem storeGroup_watchParams (r : Record) : storeGroup 0 r b s .watchParams =
    { s with
      pWatch := (b.byteAt 25).elim s.pWatch fun v => max 1 v.toNat
      dDrop := (b.byteAt 26).elim s.dDrop fun v => min 63 v.toNat
      kAlarm := (b.byteAt 27).elim s.kAlarm fun v => max 1 (min 15 v.toNat) } := by
  have period : ∀ v : Byte, clamp 1 255 v.toNat = max 1 v.toNat := fun v =>
    congrArg (max 1) (Nat.min_eq_right (Nat.le_of_lt_succ v.isLt))
  simp only [storeGroup, written_eq_elim, clamp_zero, period]
  rfl

theorem storeGroup_busy : storeGroup 0 (.leg k) b s .busy =
    { s with busy := s.busy.set k ((b.byteAt 9).elim (s.busy.get k) fun v =>
        ⟨v.getLsbD 0, v.getLsbD 1, v.getLsbD 2, v.getLsbD 3⟩) } := by
  simp only [storeGroup, storeLegGroup, written_eq_elim]

theorem storeGroup_retrain (p : PortId) : storeGroup p (.leg k) b s .retrain =
    { s with legs := s.legs.set k { s.legs.get k with
      autoRetrain := (b.byteAt 4).elim (s.legs.get k).autoRetrain fun v => decide (v ≠ 0) } } := by
  simp only [storeGroup, storeLegGroup, written_flag]
  rfl

theorem storeGroup_presets (p : PortId) : storeGroup p (.leg k) b s .presets =
    { s with legs := s.legs.set k { s.legs.get k with
      sTx := (b.byteAt 5).elim (s.legs.get k).sTx fun v => Fin.ofNat 4 (v.toNat % 8)
      cTx := (b.byteAt 6).elim (s.legs.get k).cTx fun v => Fin.ofNat 4 (v.toNat % 8)
      sPartner := (b.byteAt 7).elim (s.legs.get k).sPartner fun v => Fin.ofNat 4 (v.toNat % 8)
      cPartner := (b.byteAt 8).elim (s.legs.get k).cPartner fun v => Fin.ofNat 4 (v.toNat % 8) } } := by
  simp only [storeGroup, storeLegGroup, presetAfter_eq]
  rfl

/-! The fixed positions of the tables a write does not name are at REFUSE already (R176). -/

variable {s} (r : Record) (hl : s.policyLaw)
include hl

theorem storeGroup_readEntries : storeGroup 0 r b s .readEntries =
    { s with policy := { s.policy with read := writtenFlags s.policy.read b 0 } } := by
  simp only [storeGroup, PolicyTable.fixed, and_of_and_not_eq_zero hl.1, and_of_and_not_eq_zero hl.2]

theorem storeGroup_writeEntries : storeGroup 0 r b s .writeEntries =
    { s with policy := { s.policy with write := writtenFlags s.policy.write b 32 &&& writeConfigurable } } := by
  simp only [storeGroup, PolicyTable.fixed, and_of_and_not_eq_zero hl.2]

theorem storeGroup_actionEntries : storeGroup 0 r b s .actionEntries =
    { s with policy := { s.policy with actions := writtenFlags s.policy.actions b 0 &&& actionConfigurable } } := by
  simp only [storeGroup, PolicyTable.fixed, and_of_and_not_eq_zero hl.1]

end Store

/-! ## Writes of one group -/

/-- All bytes of the port's buffer lie in one block, in one range of its offsets. -/
def writesWithin (s : State) (p : PortId) (block lo hi : Nat) : Prop :=
  (s.port p).buffer.block = some block ∧ ∀ e ∈ (s.port p).buffer.entries, lo ≤ e.1 ∧ e.1 < hi

/-- The status a write stop leaves that stored all it was given (R180). -/
def PortStatus.allStored (st : PortStatus) : PortStatus :=
  { st with last := .ok, refused := min 255 st.refused, busy := min 255 st.busy, discarded := none }

section Write
variable {s : State} {p : PortId} {block off : Nat} {x : Byte} {rest : List (Nat × Byte)} {r : Record} {g : FieldGroup}

/-- A write part whose bytes lie in one range of offsets, all of one group. -/
theorem oneGroup_within {gs : List FieldGroup} {lo hi : Nat} (hw : (s.port p).phase = .writing)
    (hh : (s.port p).handed = []) (he : (s.port p).buffer.entries = (off, x) :: rest) (hin : writesWithin s p block lo hi)
    (hm : resolve s p block = some r) (hr : r ≠ .action) (hgs : (record s p r).map Prod.fst = gs)
    (hg : ∀ o < hi, lo ≤ o → gs[o]? = some g) : OneGroup s p block r g off := by
  obtain ⟨hblock, hrange⟩ := hin
  refine ⟨hw, hh, hblock, ⟨x, rest, he⟩, hm, fun e hmem => ?_, hr⟩
  obtain ⟨hlo, hhi⟩ := hrange e hmem
  exact groupAt_of_groups hgs (hg e.1 hhi hlo)

theorem groupAnswer_of_allow {b : HoldingBuffer} (h : judgeWrite s p r g = .allow) :
    groupAnswer s p r b g = if ownerRefuses g b then .refused else .allow := by
  unfold groupAnswer
  rw [h]

/-- M0 writes a group whose owner has no rule of its own. -/
theorem OneGroup.stored (h : OneGroup s 0 block r g off) (later : BitVec 8) (hro : g.readOnly = false)
    (ho : ownerRefuses g (s.port 0).buffer = false) {u : State} (hu : storeGroup 0 r (s.port 0).buffer s g = u)
    (hport : u.port 0 = s.port 0) :
    (endWritePart s 0 later).quiet = u.writeEnded 0 (s.port 0).status.allStored :=
  h.allowed later ((groupAnswer_of_allow (judgeWrite_switch s r hro)).trans (by rw [ho]; rfl)) hu hport

/-- The policy table after a write part at M0 that leaves `t`. -/
theorem OneGroup.stored_policy (h : OneGroup s 0 block r g off) (later : BitVec 8) (hro : g.readOnly = false)
    (ho : ownerRefuses g (s.port 0).buffer = false) {t : PolicyTable}
    (hu : storeGroup 0 r (s.port 0).buffer s g = { s with policy := t }) : (endWritePart s 0 later).policy = t ∧
      (endWritePart s 0 later).quiet = ({ s with policy := t } : State).writeEnded 0 (s.port 0).status.allStored := by
  have e := h.stored later hro ho hu rfl
  have policy : (endWritePart s 0 later).quiet.policy =
      (({ s with policy := t } : State).writeEnded 0 (s.port 0).status.allStored).policy := by rw [e]
  exact ⟨policy, e⟩

end Write

/-! ## Writes at M0 -/

section Switch
variable {s : State} {off : Nat} {x : Byte} {rest : List (Nat × Byte)} (later : BitVec 8)
  (hw : (s.port 0).phase = .writing) (hh : (s.port 0).handed = [])
  (he : (s.port 0).buffer.entries = (off, x) :: rest)
include hw hh he

theorem write_profile (hin : writesWithin s 0 0x20 0 24) : (endWritePart s 0 later).quiet =
    (storeGroup 0 .profile (s.port 0).buffer s .profile).writeEnded 0 (s.port 0).status.allStored :=
  (oneGroup_within hw hh he hin rfl nofun (profileRecord_groups s 0) (by decide)).stored later rfl rfl rfl rfl

theorem write_readEntries (hl : s.policyLaw) (hin : writesWithin s 0 0x21 0 20) :
    (endWritePart s 0 later).policy = { s.policy with read := writtenFlags s.policy.read (s.port 0).buffer 0 } ∧
    (endWritePart s 0 later).quiet = ({ s with policy := { s.policy with
      read := writtenFlags s.policy.read (s.port 0).buffer 0 } } : State).writeEnded 0 (s.port 0).status.allStored :=
  (oneGroup_within hw hh he hin rfl nofun (policyGroupsRecord_groups s 0) (by decide)).stored_policy later rfl rfl
    (storeGroup_readEntries _ _ hl)

theorem write_writeEntries (hl : s.policyLaw) (hin : writesWithin s 0 0x21 32 52) :
    (endWritePart s 0 later).policy =
      { s.policy with write := writtenFlags s.policy.write (s.port 0).buffer 32 &&& writeConfigurable } ∧
    (endWritePart s 0 later).quiet = ({ s with policy := { s.policy with
      write := writtenFlags s.policy.write (s.port 0).buffer 32 &&& writeConfigurable } } : State).writeEnded 0
        (s.port 0).status.allStored :=
  (oneGroup_within hw hh he hin rfl nofun (policyGroupsRecord_groups s 0) (by decide)).stored_policy later rfl rfl
    (storeGroup_writeEntries _ _ hl)

theorem write_actionEntries (hl : s.policyLaw) (hin : writesWithin s 0 0x22 0 14) :
    (endWritePart s 0 later).policy =
      { s.policy with actions := writtenFlags s.policy.actions (s.port 0).buffer 0 &&& actionConfigurable } ∧
    (endWritePart s 0 later).quiet = ({ s with policy := { s.policy with
      actions := writtenFlags s.policy.actions (s.port 0).buffer 0 &&& actionConfigurable } } : State).writeEnded 0
        (s.port 0).status.allStored :=
  (oneGroup_within hw hh he hin rfl nofun (policyActionsRecord_groups s 0) (by decide)).stored_policy later rfl rfl
    (storeGroup_actionEntries _ _ hl)

theorem write_farEntry (hin : writesWithin s 0 0x22 16 17) : (endWritePart s 0 later).quiet =
    (storeGroup 0 .policyActions (s.port 0).buffer s .farEntry).writeEnded 0 (s.port 0).status.allStored :=
  (oneGroup_within hw hh he hin rfl nofun (policyActionsRecord_groups s 0) (by decide)).stored later rfl rfl rfl rfl

theorem write_hysteresis (hin : writesWithin s 0 0 24 25) : (endWritePart s 0 later).quiet =
    (storeGroup 0 .part (s.port 0).buffer s .hysteresis).writeEnded 0 (s.port 0).status.allStored :=
  (oneGroup_within hw hh he hin rfl nofun (partRecord_groups s 0) (by decide)).stored later rfl rfl rfl rfl

theorem write_watchParams (hin : writesWithin s 0 0 25 28) : (endWritePart s 0 later).quiet =
    (storeGroup 0 .part (s.port 0).buffer s .watchParams).writeEnded 0 (s.port 0).status.allStored :=
  (oneGroup_within hw hh he hin rfl nofun (partRecord_groups s 0) (by decide)).stored later rfl rfl rfl rfl

theorem write_busy {k : LegId} (hin : writesWithin s 0 (1 + k.val) 9 10) : (endWritePart s 0 later).quiet =
    (storeGroup 0 (.leg k) (s.port 0).buffer s .busy).writeEnded 0 (s.port 0).status.allStored :=
  (oneGroup_within hw hh he hin (resolve_leg_switch s k) nofun (legRecord_groups s 0 k) (by decide)).stored later
    rfl rfl rfl rfl

end Switch

/-! ## Writes at M0 or at the leg's own port -/

/-- M0 may write leg `k`'s group of write entry `n`, and so may the leg's host where busy mask and policy allow (R177,
R178). -/
def mayStoreLeg (s : State) (p : PortId) (k : LegId) (n : Nat) : Prop :=
  p = 0 ∨ (p = legPort k ∧ (s.busy.get k).leg = false ∧ s.policy.write.getLsbD n = true)

section Leg
variable {s : State} {p : PortId} {k : LegId} {off : Nat} {x : Byte} {rest : List (Nat × Byte)} (later : BitVec 8)
  (hw : (s.port p).phase = .writing) (hh : (s.port p).handed = [])
  (he : (s.port p).buffer.entries = (off, x) :: rest)
include hw hh he

theorem oneGroup_ofLeg {g : FieldGroup} {n lo hi : Nat} (hst : mayStoreLeg s p k n)
    (hin : writesWithin s p (if p = 0 then 1 + k.val else 1) lo hi)
    (hg : ∀ o < hi, lo ≤ o → [FieldGroup.legState, .legState, .threshold, .threshold, .retrain, .presets, .presets,
      .presets, .presets, .busy][o]? = some g) : OneGroup s p (if p = 0 then 1 + k.val else 1) (.leg k) g off :=
  oneGroup_within hw hh he hin (resolve_leg (hst.imp_right fun h => h.1)) nofun (legRecord_groups s p k) hg

theorem write_retrain (hst : mayStoreLeg s p k 2)
    (hin : writesWithin s p (if p = 0 then 1 + k.val else 1) 4 5) :
    (endWritePart s p later).quiet =
      (storeGroup p (.leg k) (s.port p).buffer s .retrain).writeEnded p (s.port p).status.allStored :=
  (oneGroup_ofLeg hw hh he (g := .retrain) hst hin (by decide)).allowed later
    (groupAnswer_of_allow (judgeWrite_leg_allow (g := .retrain) rfl nofun rfl hst)) rfl rfl

theorem write_presets (hst : mayStoreLeg s p k 3) (hin : writesWithin s p (if p = 0 then 1 + k.val else 1) 5 9)
    (hgood : ¬ ownerRefuses .presets (s.port p).buffer = true) : (endWritePart s p later).quiet =
      (storeGroup p (.leg k) (s.port p).buffer s .presets).writeEnded p (s.port p).status.allStored :=
  (oneGroup_ofLeg hw hh he (g := .presets) hst hin (by decide)).allowed later
    ((groupAnswer_of_allow (judgeWrite_leg_allow (g := .presets) rfl nofun rfl hst)).trans (if_neg hgood)) rfl rfl

theorem write_presets_refused (hst : mayStoreLeg s p k 3)
    (hin : writesWithin s p (if p = 0 then 1 + k.val else 1) 5 9)
    (hbad : ownerRefuses .presets (s.port p).buffer = true) :
    (endWritePart s p later).quiet = s.writeEnded p { (s.port p).status with
      last := .refused, refused := min 255 ((s.port p).status.refused + 1), busy := min 255 (s.port p).status.busy,
      discarded := some ((if p = 0 then 1 + k.val else 1) * 64 + off) } :=
  (oneGroup_ofLeg hw hh he (g := .presets) hst hin (by decide)).refused later
    ((groupAnswer_of_allow (judgeWrite_leg_allow (g := .presets) rfl nofun rfl hst)).trans (if_pos hbad))

end Leg

/-- Settles O34, group by group. -/
theorem registerWritesStoreTheirFields : Obligations.RegisterWritesStoreTheirFields := by
  intro p later s k off x rest b st ended ok within yes polarity own c mayStore badPresets preset hw hh he
  refine ⟨_, registerWrite_eq later hw, ?_, fun hst hin => ?_, fun hst hin => ⟨fun hgood => ?_, fun hbad => ?_⟩⟩
  · rintro rfl
    refine ⟨fun hin => ?_, fun hl hin => ?_, fun hl hin => ?_, fun hl hin => ?_, fun hin => ?_, fun hin => ?_,
      fun hin => ?_, fun hin => ?_⟩
    · rw [write_profile later hw hh he hin, storeGroup_profile]
      rfl
    · obtain ⟨policy, left⟩ := write_readEntries later hw hh he hl hin
      rw [policy]
      refine ⟨fun n => ?_, left⟩
      rw [writtenFlags_getLsbD, Nat.zero_add]
    · obtain ⟨policy, left⟩ := write_writeEntries later hw hh he hl hin
      rw [policy]
      refine ⟨fun n => ?_, left⟩
      rw [BitVec.getLsbD_and, writtenFlags_getLsbD, writeConfigurable_getLsbD, Bool.and_comm]
    · obtain ⟨policy, left⟩ := write_actionEntries later hw hh he hl hin
      rw [policy]
      refine ⟨fun n => ?_, left⟩
      rw [BitVec.getLsbD_and, writtenFlags_getLsbD, actionConfigurable_getLsbD, Bool.and_comm, Nat.zero_add]
    · rw [write_farEntry later hw hh he hin, storeGroup_farEntry]
      rfl
    · rw [write_busy later hw hh he hin, storeGroup_busy]
      rfl
    · rw [write_hysteresis later hw hh he hin, storeGroup_hysteresis]
      rfl
    · rw [write_watchParams later hw hh he hin, storeGroup_watchParams]
      rfl
  · rw [write_retrain later hw hh he hst hin, storeGroup_retrain]
    rfl
  · rw [write_presets later hw hh he hst hin (by rwa [ownerRefuses_presets]), storeGroup_presets]
    rfl
  · exact write_presets_refused later hw hh he hst hin ((ownerRefuses_presets b).mpr hbad)

end Sys2Proof.Machine
end

section
/-! SUPPORT. Properties of a lane: one that every rewriting of a lane keeps is kept at every lane by every change. -/

namespace Sys2Proof.Machine

/-- A lane with what an event on side `d` leaves there stored, before it follows its segments (R139). -/
def Lane.took (l : Lane) (d : Side) (o : Out) : Lane :=
  { l.setHalf d o.half with retrainRequested := l.retrainRequested || o.retrain }

@[simp] theorem Lane.took_state (l : Lane) (d : Side) (o : Out) : (l.took d o).state = l.state := Lane.setHalf_state l d _
@[simp] theorem Lane.took_hold (l : Lane) (d : Side) (o : Out) : (l.took d o).hold = l.hold := Lane.setHalf_hold l d _
@[simp] theorem Lane.took_fc (l : Lane) (d : Side) (o : Out) : (l.took d o).fc = l.fc := Lane.setHalf_fc l d _

theorem Lane.took_half (l : Lane) (d e : Side) (o : Out) : (l.took d o).half e = if e = d then o.half else l.half e := by
  cases d <;> cases e <;> rfl

/-- A lane in TRAIN with both segments DONE, which READY is due for (R43). -/
def Lane.readyDue (l : Lane) : Prop := l.state = .train ∧ l.s.seg.state = .done ∧ l.c.seg.state = .done

/-- A property of a lane that each rewriting of a lane keeps, where the model makes it. -/
structure LaneInvariant (Q : Lane → Prop) : Prop where
  reset : Q Lane.reset
  side {ctx : Ctx} {l : Lane} {d : Side} {h : Half} : Q l → SideChange ctx l (l.half d) h → Q (l.setHalf d h)
  ignored {ctx : Ctx} {l : Lane} {d : Side} {o : Out} : Q l → SideEvent ctx l (l.half d) o → o.fail ≠ none →
    ¬ ((l.state = .train ∨ l.state = .ready) ∧ o.half.seg.state ≠ .idle) → Q (l.took d o)
  followed {ctx : Ctx} {l : Lane} {d : Side} {o : Out} : Q l → SideEvent ctx l (l.half d) o →
    (((l.took d o).afterRestart d).readyDue → Q { (l.took d o).afterRestart d with state := .ready }) ∧
      (¬ ((l.took d o).afterRestart d).readyDue → Q ((l.took d o).afterRestart d))
  fails {l l' : Lane} (d : Side) (r : FailReason) : Q l → l'.state = l.state → l'.hold = l.hold → l'.fc = l.fc →
    (l.state = .train ∨ l.state = .ready) → Q (l'.fail d r)
  carries {l : Lane} : Q l → l.state = .ready → Q l.enterCarry
  pulled {l : Lane} : Q l → l.state = .carry → Q l.pullBack
  moves {s : State} {i : LaneId} {f : Lane → Lane} : LaneMove s i f → Q (s.lane i) → Q (f (s.lane i))
  request {l : Lane} (b : Bool) : Q l → Q { l with retrainRequested := b }
  cleared {l : Lane} : Q l → Q l.clearCounters
  asserted {l : Lane} : Q l → Q l.assertLine
  released {l : Lane} (cfg : LegConfig) : Q l → Q (l.releaseLine cfg)
  restarted {l : Lane} (cfg : LegConfig) : Q l → Q (l.softReset cfg)
  off {l : Lane} : Q l → Q l.enterOff
  enabled {l : Lane} (cfg : LegConfig) (line : Bool) (pair : Option SwitchLane) : Q l → Q (l.enable cfg line pair)
  handed {l : Lane} (cs : List ApplyCase) (pair : Option SwitchLane) : Q l → Q { l with cases := cs, sPair := pair }

namespace LaneInvariant
variable {Q : Lane → Prop} {s : State} {i : LaneId}

theorem setLane {l : Lane} (h : ∀ i, Q (s.lane i)) (hl : Q l) (j : LaneId) : Q ((s.setLane i l).lane j) := by
  rw [State.lane_setLane]
  split
  · exact hl
  · exact h j

theorem mapLeg {k : LegId} {f : LaneId → Lane → Lane} (h : ∀ i, Q (s.lane i)) (hf : ∀ i l, Q l → Q (f i l))
    (j : LaneId) : Q ((s.mapLeg k f).lane j) := by
  rw [State.lane_mapLeg]
  split
  · exact hf j _ (h j)
  · exact h j

theorem moveLane (hQ : LaneInvariant Q) {f : Lane → Lane} (h : ∀ i, Q (s.lane i)) (hf : Q (f (s.lane i)))
    (j : LaneId) : Q ((s.moveLane i f).lane j) := by
  obtain ⟨-, hself, hother, -⟩ := moveLane_eq s i f
  by_cases e : j = i
  · rw [e, hself]
    exact hf
  · rw [hother j e]
    split
    · next c => exact hQ.pulled (h j) c.2.2.2.2
    · exact h j

/-- A lane that has followed its segments is checked for READY, and its leg for CARRY (R43, R55). -/
theorem readyCheck (hQ : LaneInvariant Q) (h : ∀ j, j ≠ i → Q (s.lane j))
    (hready : (s.lane i).readyDue → Q { s.lane i with state := .ready })
    (hself : ¬ (s.lane i).readyDue → Q (s.lane i)) (j : LaneId) : Q ((s.readyCheck i).lane j) := by
  rcases readyCheck_eq s i with ⟨e, hn⟩ | ⟨h1, h2, h3, ⟨e, -⟩ | ⟨k, -, peers, -, -, hi, hj, hn⟩⟩
  · rw [e]
    by_cases ej : j = i
    · rw [ej]
      exact hself hn
    · exact h j ej
  · rw [e, State.lane_setLane]
    split
    · exact hready ⟨h1, h2, h3⟩
    · next ej => exact h j ej
  · by_cases ej : j = i
    · rw [ej, hi]
      exact hQ.carries (hready ⟨h1, h2, h3⟩) rfl
    · by_cases ek : s.legOf j = some k
      · rw [hj j ej ek]
        exact hQ.carries (h j ej) (peers j ej ek)
      · rw [hn j ek]
        exact h j ej

theorem applyOut (hQ : LaneInvariant Q) {d : Side} {o : Out} (h : ∀ i, Q (s.lane i))
    (e : SideEvent (s.ctx i d) (s.lane i) (s.half i d) o) (j : LaneId) : Q ((s.applyOut i d o).lane j) := by
  have state : ((s.lane i).took d o).state = (s.lane i).state := Lane.took_state _ d o
  rcases applyOut_eq s i d o with ⟨r, -, ht, -, e'⟩ | ⟨r, hr, hn, e'⟩ | ⟨-, e'⟩ <;> rw [e']
  · exact setLane h (hQ.fails d r (h i) state (Lane.took_hold _ d o) (Lane.took_fc _ d o) (state ▸ ht)) j
  · exact setLane h (hQ.ignored (h i) e (by rw [hr]; nofun) (state ▸ hn)) j
  · obtain ⟨due, notDue⟩ := hQ.followed (h i) e
    have lane : (s.setLane i (((s.lane i).took d o).afterRestart d)).lane i = ((s.lane i).took d o).afterRestart d :=
      State.lane_setLane_self _ _ _
    refine hQ.readyCheck (fun j hj => ?_) (fun hd => ?_) (fun hd => ?_) j
    · rw [State.lane_setLane_ne _ _ hj]
      exact h j
    · exact lane.symm ▸ due (lane ▸ hd)
    · exact lane.symm ▸ notDue (lane ▸ hd)

/-- What an apply leaves of a lane (R17 to R20). -/
theorem applyLane (hQ : LaneInvariant Q) (before t : State) (i : LaneId) {l : Lane} (hl : Q l) :
    Q (applyLane before t i l) := by
  cases hk : t.legOf i with
  | none =>
    rw [applyLane_none l hk]
    exact hl
  | some k =>
    cases was : (before.current.legs.get k).enabled <;> cases now : (t.current.legs.get k).enabled
    · rw [applyLane_stays l hk was now]
      exact hl
    · rw [applyLane_enables l hk was now]
      exact hQ.enabled _ _ _ hl
    · rw [applyLane_disables l hk was now]
      exact hQ.off hl
    · rw [applyLane_goesOn l hk was now]
      exact hQ.handed _ _ hl

theorem takeProfile (hQ : LaneInvariant Q) (before : State) (h : ∀ i, Q (s.lane i)) (j : LaneId) :
    Q ((State.takeProfile before s).lane j) := by
  rw [takeProfile_lane]
  exact hQ.applyLane before s j (h j)

/-- Every change keeps the property at every lane. -/
theorem change (hQ : LaneInvariant Q) (s t : State) (h : ∀ i, Q (s.lane i)) (c : Change s t) : ∀ i, Q (t.lane i) := by
  have atReset : ∀ i, Q (State.reset.lane i) := fun i => by
    rw [show State.reset.lane i = Lane.reset from Tab.get_fill _ i]
    exact hQ.reset
  cases c with
  | blocks | loadFails => exact atReset
  | lines | watch | port | track => exact h
  | receiver r _ => cases r <;> exact h
  | load img _ _ =>
    rcases loadGood_cases { s with store := img } img with ⟨-, e⟩ | ⟨r, k, e⟩ <;> rw [e] <;>
      exact hQ.takeProfile (s := { (s.installConfig img).setCurrent _ with store := img }) _ h
  | lineAsserted k => exact mapLeg (s := { s with legLines := _ }) h fun _ _ => hQ.asserted
  | lineReleased k => exact mapLeg (s := { s with legLines := _ }) h fun i _ => hQ.released (s.legConfig i)
  | side i d x e => exact setLane h (hQ.side (h i) e)
  | event i d o e => exact hQ.applyOut h e
  | fail i d r =>
    rw [failSegment_eq]
    split
    · next c => exact setLane h (hQ.fails d r (h i) rfl rfl rfl c.1)
    · exact h
  | dropRequest i => exact setLane h (hQ.request false (h i))
  | clear i => exact setLane h (hQ.cleared (h i))
  | move i f m => exact hQ.moveLane h (hQ.moves m (h i))
  | config _ e => rw [e.frame]; exact h
  | apply =>
    rcases apply_cases s with ⟨r, k, e⟩ | ⟨-, -, e⟩ <;> rw [e]
    · exact h
    · exact hQ.takeProfile (s := { s.setCurrent s.pendingProfile with applyOutcome := .done, failingLeg := 0 }) s h
  | softReset hp =>
    intro j
    rw [softReset_lane hp]
    exact hQ.restarted _ (h j)

/-- Every step keeps the property at every lane. -/
theorem step (hQ : LaneInvariant Q) {s t : State} (h : ∀ i, Q (s.lane i)) (hs : Machine.step s = .next t) :
    ∀ i, Q (t.lane i) := step_keeps (P := fun s => ∀ i, Q (s.lane i)) (fun _ _ => id) hQ.change h hs

end LaneInvariant

/-! ## The hold set and the failure count (R44, R51) -/

/-- Both laws of one lane. -/
def Lane.holdAndFailure (l : Lane) : Prop := l.holdLaw ∧ l.failureLaw

/-- The laws look at the lane's state, hold set and failure count alone. -/
theorem Lane.holdAndFailure.congr {l l' : Lane} (h : l.holdAndFailure) (hs : l'.state = l.state) (hh : l'.hold = l.hold)
    (hf : l'.fc = l.fc) : l'.holdAndFailure := by
  unfold Lane.holdAndFailure Lane.holdLaw Lane.failureLaw at *
  rw [hs, hh, hf]
  exact h

/-- A lane that is neither in DOWN nor in OFF obeys the laws with an empty hold set and a count in range. -/
theorem Lane.holdAndFailure_running {l : Lane} (hh : l.hold.isEmpty = true) (ho : l.state ≠ .off)
    (hf : l.fc < 4 ∨ l.fc = 4 ∧ l.state = .fault) : l.holdAndFailure := by
  refine ⟨⟨fun h => ?_, fun h => absurd h ho⟩, by omega, fun h => ?_⟩
  · rw [hh] at h
    cases h
  · rcases hf with hf | hf
    · omega
    · exact hf.2

theorem Lane.holdAndFailure.empty {l : Lane} (h : l.holdAndFailure) (hd : l.state ≠ .down) : l.hold.isEmpty = true := by
  by_contra hn
  exact hd (h.1.1 (by simpa using hn))

theorem Lane.holdAndFailure.lt {l : Lane} (h : l.holdAndFailure) (hd : l.state ≠ .fault) : l.fc < 4 :=
  Nat.lt_of_le_of_ne h.2.1 fun e => hd (h.2.2 e)

theorem Lane.holdAndFailure_trainFresh {l : Lane} (cfg : LegConfig) (hh : l.hold.isEmpty = true) (hf : l.fc < 4) :
    (l.trainFresh cfg).holdAndFailure := Lane.holdAndFailure_running hh nofun (.inl hf)

/-- A lane in DOWN with fc 0 obeys the laws, whatever holds it (R41). -/
theorem Lane.holdAndFailure_down {l : Lane} (hd : l.state = .down) (hf : l.fc < 4) : l.holdAndFailure :=
  ⟨⟨fun _ => hd, fun h => by rw [hd] at h; cases h⟩, by omega, fun h => by omega⟩

/-- A lane that goes on from DOWN does so with an empty hold set (R41, R52). -/
theorem Lane.holdAndFailure.goOn {l : Lane} (cfg : LegConfig) (h : l.holdAndFailure) : (l.goOn cfg).holdAndFailure := by
  unfold Lane.goOn
  split
  · next c => exact Lane.holdAndFailure_trainFresh cfg c.2 (h.lt (by rw [c.1]; nofun))
  · exact h

/-- Members leave the hold set, which a lane outside DOWN has none of (R52, R53). -/
theorem Lane.holdAndFailure.lessHeld {l : Lane} {x : HoldSet} (h : l.holdAndFailure)
    (hx : l.hold.isEmpty = true → x.isEmpty = true) : Lane.holdAndFailure { l with hold := x } := by
  refine ⟨⟨fun hn => h.1.1 ?_, fun ho => hx (h.1.2 ho)⟩, h.2⟩
  by_contra hc
  rw [hx (by simpa using hc)] at hn
  cases hn

theorem HoldSet.withMember_false_isEmpty {x : HoldSet} (p : PortId) (h : x.isEmpty = true) :
    (x.withMember p false).isEmpty = true := by
  rw [HoldSet.isEmpty_iff] at h
  unfold HoldSet.withMember
  rw [h]
  split <;> rfl

theorem Lane.holdAndFailure.addHold {l : Lane} (x : HoldSet) (h : l.holdAndFailure) : (l.addHold x).holdAndFailure := by
  unfold Lane.addHold
  split
  · next hd => exact Lane.holdAndFailure_down hd (h.lt (by rw [hd]; nofun))
  · exact Lane.holdAndFailure_down rfl (by decide : 0 < 4)

theorem Lane.holdAndFailure.takeCase {l : Lane} (cfg : LegConfig) (pair : Option SwitchLane) (h : l.holdAndFailure) :
    (l.takeCase cfg pair).holdAndFailure := by
  unfold Lane.takeCase
  split
  · exact h
  · split
    · exact Lane.holdAndFailure.goOn _ (Lane.holdAndFailure_down rfl (by decide : 0 < 4))
    · exact h

/-- Each rewriting of a lane keeps the laws: a failure raises the count and gives up at 4, and only DOWN takes a member. -/
theorem holdAndFailure_invariant : LaneInvariant Lane.holdAndFailure where
  reset := ⟨by decide, by decide⟩
  side h _ := h.congr (Lane.setHalf_state _ _ _) (Lane.setHalf_hold _ _ _) (Lane.setHalf_fc _ _ _)
  ignored h _ _ _ := h.congr (Lane.took_state _ _ _) (Lane.took_hold _ _ _) (Lane.took_fc _ _ _)
  followed {ctx l d o} h _ := by
    have took : (l.took d o).holdAndFailure := h.congr (Lane.took_state _ _ _) (Lane.took_hold _ _ _) (Lane.took_fc _ _ _)
    have running : ∀ {m : Lane}, m.holdAndFailure → (m.state = .train ∨ m.state = .ready) → ∀ x : LaneState, x ≠ .off →
        Lane.holdAndFailure { m with state := x } := fun hm hs x hx =>
      Lane.holdAndFailure_running (hm.empty (by rcases hs with e | e <;> rw [e] <;> nofun)) hx
        (.inl (hm.lt (by rcases hs with e | e <;> rw [e] <;> nofun)))
    have after : ((l.took d o).afterRestart d).holdAndFailure := by
      unfold Lane.afterRestart
      split
      · next c => exact running took (.inr c.1) _ nofun
      · exact took
    exact ⟨fun due => running after (.inl due.1) _ nofun, fun _ => after⟩
  fails {l l'} d r h hs hh hf ht := by
    have hlt : l.fc < 4 := h.lt (by rcases ht with e | e <;> rw [e] <;> nofun)
    have hhold : (l'.fail d r).hold = l.hold := (Lane.setHalf_hold _ _ _).trans hh
    have hfc : (l'.fail d r).fc = l.fc + 1 := congrArg (· + 1) ((Lane.setHalf_fc _ _ _).trans hf)
    have hstate : (l'.fail d r).state = if l.fc + 1 < retryBudget then .wait else .fault := by rw [← hfc]; rfl
    refine Lane.holdAndFailure_running ?_ ?_ ?_
    · rw [hhold]
      exact h.empty (by rcases ht with e | e <;> rw [e] <;> nofun)
    · rcases Lane.fail_state d r l' with e | e <;> rw [e] <;> nofun
    · rw [hfc, hstate]
      by_cases hb : l.fc + 1 < 4
      · exact .inl hb
      · exact .inr ⟨by omega, if_neg hb⟩
  carries h hs := Lane.holdAndFailure_running (h.empty (by rw [hs]; nofun)) nofun (.inl (by decide : 0 < 4))
  pulled h hs := Lane.holdAndFailure_running (h.empty (by rw [hs]; nofun)) nofun (.inl (h.lt (by rw [hs]; nofun)))
  moves {s i f} m h := by
    have fresh : ∀ {x : LaneState}, (s.lane i).state = x → x ≠ .down → x ≠ .fault →
        ((s.lane i).trainFresh (s.legConfig i)).holdAndFailure := fun e hd hf =>
      Lane.holdAndFailure_trainFresh _ (h.empty (e ▸ hd)) (h.lt (e ▸ hf))
    cases m with
    | drop hc => exact (fresh hc nofun nofun).congr rfl rfl rfl
    | quiet hw => exact fresh hw nofun nofun
    | watchRetrain hc => exact (fresh hc nofun nofun).congr rfl rfl rfl
    | applyCase _ => exact h.takeCase _ _
    | retrain _ hd => exact Lane.holdAndFailure_trainFresh _ (h.empty hd) (by decide : 0 < 4)
    | hold p _ => exact h.addHold _
    | release p _ => exact (h.lessHeld (HoldSet.withMember_false_isEmpty p)).goOn _
  request _ h := h
  cleared h := h
  asserted h := by
    unfold Lane.assertLine
    split
    · exact h
    · exact h.addHold _
  released {l} cfg h := by
    refine (h.lessHeld fun he => ?_).goOn cfg
    rw [HoldSet.isEmpty_iff] at he
    rw [he]
    rfl
  restarted {l} cfg h := by
    unfold Lane.softReset
    dsimp only
    split
    · next ho => exact ⟨h.1, Nat.zero_le _, nofun⟩
    · exact Lane.holdAndFailure.goOn _ (Lane.holdAndFailure_down rfl (by decide : 0 < 4))
  off _ := ⟨⟨nofun, fun _ => rfl⟩, Nat.zero_le _, nofun⟩
  enabled _ _ _ _ := Lane.holdAndFailure.goOn _ (Lane.holdAndFailure_down rfl (by decide : 0 < 4))
  handed _ _ h := h

/-- Settles O51: every rewriting of a lane keeps both laws. -/
theorem stepsKeepTheHoldAndFailureLaws : Obligations.StepsKeepTheHoldAndFailureLaws := fun _ _ h hs =>
  holdAndFailure_invariant.step h hs

end Sys2Proof.Machine
end

section
/-! SUPPORT. The segment of a side through each event, and the laws of the segments under every step (R32, R39, R42, R43, R55). -/

namespace Sys2Proof.Machine

/-! ## The segment state through a good frame (R33 to R38, R84) -/

theorem ScanOnly.state {h h' : Half} (e : ScanOnly h h') : h'.seg.state = h.seg.state := by
  unfold ScanOnly at e
  rw [e]

theorem SearchOnly.state {h h' : Half} (e : SearchOnly h h') : h'.seg.state = h.seg.state := e.scanOnly.state

/-- The segment is in EXCHANGE or DONE. -/
def Half.exchanging (h : Half) : Prop := h.seg.state = .exchange ∨ h.seg.state = .done

theorem Half.exchanging.congr {h h' : Half} (hs : h.exchanging) (e : h'.seg.state = h.seg.state) : h'.exchanging := by
  unfold Half.exchanging
  rw [e]
  exact hs

/-- A frame ends DETECT, and keeps EXCHANGE and DONE between them (R33, R38, R84). -/
theorem takeSession_exchanging {h : Half} (ctx : Ctx) (f : Frame) (hs : h.seg.state ≠ .idle) :
    (h.takeSession ctx f).exchanging := by
  unfold Half.takeSession
  split
  · next e => exact absurd e hs
  · exact .inl (startSearch_searchOnly ctx _).state
  · next e => split <;> exact .inl e
  · next e =>
    split
    · exact .inr e
    · exact .inl (startSearch_searchOnly ctx _).state

theorem takeSync_state (h : Half) (f : Frame) : (h.takeSync f).seg.state = h.seg.state := by
  unfold Half.takeSync Half.synchronise
  split
  · dsimp only
    split <;> rfl
  · rfl

theorem takeReply_state (ctx : Ctx) (h : Half) (f : Frame) : (h.takeReply ctx f).half.seg.state = h.seg.state := by
  unfold Half.takeReply
  split
  · exact (answered_searchOnly ctx _ _).state
  · rfl

theorem takeRequest_seg (h : Half) (f : Frame) : (h.takeRequest f).seg = h.seg := by
  unfold Half.takeRequest
  split
  · rfl
  · split <;> rfl
  · split <;> rfl

theorem takeReady_state (h : Half) (f : Frame) : (h.takeReady f).seg.state = h.seg.state := by
  unfold Half.takeReady
  split <;> rfl

theorem tryDone_exchanging {h : Half} (hs : h.exchanging) : h.tryDone.exchanging := by
  unfold Half.tryDone
  split
  · exact .inr rfl
  · exact hs

/-- A good frame leaves a segment that was not IDLE in EXCHANGE or DONE (R84). -/
theorem takeFrame_exchanging {h : Half} (ctx : Ctx) (f : Frame) (hs : h.seg.state ≠ .idle) :
    (h.takeFrame ctx f).half.exchanging := by
  refine tryDone_exchanging ((takeSession_exchanging ctx f hs).congr ?_)
  rw [show ∀ x : Half, (x.takeEcho f).seg.state = x.seg.state from fun _ => rfl, takeReady_state, takeRequest_seg,
    takeReply_state, takeSync_state]

/-- The segment state through an event: a frame leaves EXCHANGE or DONE, and every other event keeps it. -/
theorem SideEvent.segment {ctx : Ctx} {l : Lane} {h : Half} {o : Out} (e : SideEvent ctx l h o) :
    o.half.seg.state = h.seg.state ∨ h.seg.state ≠ .idle ∧ l.state ≠ .carry ∧ o.half.exchanging := by
  cases e with
  | frame f hi hc => exact .inr ⟨hi, hc, takeFrame_exchanging ctx f hi⟩
  | lockLost => exact .inl (scanLosesLock_scanOnly ctx h).state
  | settled _ => exact .inl (requestSearchScan_scanOnly ctx h.stopSettle).state
  | watched _ => exact .inl (requestWatchScan_scanOnly ctx h).state
  | window n _ => exact .inl (windowEnd_scanOnly ctx h n).state

theorem SideChange.segment {ctx : Ctx} {l : Lane} {h h' : Half} (e : SideChange ctx l h h') :
    h'.seg.state = h.seg.state := by
  cases e with
  | startRelock =>
    unfold Half.startRelock
    split <;> rfl
  | measure _ _ _ => exact (startScan_scanOnly ctx h .action).state
  | stopRelock | stopAcquire | stopTune | stopReply | badFrame | suspect | setting => rfl

/-! ## The segments that a lane state allows (R39, R42, R43, R55) -/

/-- The law looks at the lane state and the two segment states alone. -/
theorem segmentLaw_congr {l l' : Lane} (h : l.segmentLaw = true) (hs : l'.state = l.state)
    (hd : ∀ d, (l'.half d).seg.state = (l.half d).seg.state) : l'.segmentLaw = true := by
  unfold Lane.segmentLaw at *
  rw [hs, show l'.s.seg.state = l.s.seg.state from hd .S, show l'.c.seg.state = l.c.seg.state from hd .C]
  exact h

/-- A lane outside TRAIN, READY and CARRY whose segments are both IDLE (R39). -/
theorem segmentLaw_resting {l : Lane} (h : l.state ≠ .train ∧ l.state ≠ .ready ∧ l.state ≠ .carry)
    (hs : l.s.seg.state = .idle) (hc : l.c.seg.state = .idle) : l.segmentLaw = true := by
  cases e : l.state <;> simp_all [Lane.segmentLaw]

/-- A segment that is not IDLE runs in TRAIN, READY or CARRY (R39). -/
theorem state_of_running {l : Lane} {d : Side} (h : l.segmentLaw = true) (hd : (l.half d).seg.state ≠ .idle) :
    l.state = .train ∨ l.state = .ready ∨ l.state = .carry := by
  cases e : l.state <;> cases d <;> simp_all [Lane.segmentLaw, Lane.half]

/-- In READY and CARRY both segments are DONE (R43, R55). -/
theorem done_of_ready {l : Lane} (h : l.segmentLaw = true) (hr : l.state = .ready ∨ l.state = .carry) (d : Side) :
    (l.half d).seg.state = .done := by
  rcases hr with e | e <;> cases d <;> simp_all [Lane.segmentLaw, Lane.half]

/-- In TRAIN no segment is IDLE (R42). -/
theorem running_of_train {l : Lane} (h : l.segmentLaw = true) (ht : l.state = .train) (d : Side) :
    (l.half d).seg.state ≠ .idle := by
  cases d <;> simp_all [Lane.segmentLaw, Lane.half]

/-- A lane in TRAIN for which READY is not due, with no segment IDLE (R42, R43). -/
theorem segmentLaw_train {l : Lane} (ht : l.state = .train) (hd : ∀ d, (l.half d).seg.state ≠ .idle)
    (hn : ¬ l.readyDue) : l.segmentLaw = true := by
  have hs : l.s.seg.state ≠ .idle := hd .S
  have hc : l.c.seg.state ≠ .idle := hd .C
  have notDone := not_and_or.mp fun h => hn ⟨ht, h⟩
  simpa [Lane.segmentLaw, ht, hs, hc] using notDone

/-- A lane in READY or CARRY with both segments DONE (R43, R55). -/
theorem segmentLaw_ready {l : Lane} (hr : l.state = .ready ∨ l.state = .carry)
    (hd : ∀ d, (l.half d).seg.state = .done) : l.segmentLaw = true := by
  have hs : l.s.seg.state = .done := hd .S
  have hc : l.c.seg.state = .done := hd .C
  rcases hr with e | e <;> simp [Lane.segmentLaw, e, hs, hc]

/-- TRAIN fresh puts both segments in DETECT (R32, R42). -/
theorem segmentLaw_trainFresh (cfg : LegConfig) (l : Lane) : (l.trainFresh cfg).segmentLaw = true := rfl

theorem segmentLaw_goOn {l : Lane} (cfg : LegConfig) (h : l.segmentLaw = true) : (l.goOn cfg).segmentLaw = true := by
  unfold Lane.goOn
  split
  · exact segmentLaw_trainFresh cfg l
  · exact h

theorem segmentLaw_enterDown (l : Lane) : l.enterDown.segmentLaw = true := segmentLaw_resting ⟨nofun, nofun, nofun⟩ rfl rfl

theorem segmentLaw_addHold {l : Lane} (x : HoldSet) (h : l.segmentLaw = true) : (l.addHold x).segmentLaw = true := by
  unfold Lane.addHold
  split
  · exact h
  · exact segmentLaw_enterDown l

theorem segmentLaw_takeCase {l : Lane} (cfg : LegConfig) (pair : Option SwitchLane) (h : l.segmentLaw = true) :
    (l.takeCase cfg pair).segmentLaw = true := by
  unfold Lane.takeCase
  split
  · exact h
  · split
    · exact segmentLaw_goOn cfg (segmentLaw_enterDown l)
    · exact h

/-- The segment states of a lane that follows its segments are those the event left. -/
theorem afterRestart_half (l : Lane) (d e : Side) : (l.afterRestart d).half e = l.half e := by
  unfold Lane.afterRestart
  split
  · cases e <;> rfl
  · rfl

/-- A frame at a lane in TRAIN or READY leaves no segment IDLE, and sends the lane back to TRAIN if it took the segment out of
DONE (R38, R47). -/
theorem afterRestart_frame {l : Lane} {d : Side} {o : Out} (h : l.segmentLaw = true)
    (ht : l.state = .train ∨ l.state = .ready) (hx : o.half.exchanging) :
    (((l.took d o).afterRestart d).state = .train ∧ ∀ e, (((l.took d o).afterRestart d).half e).seg.state ≠ .idle) ∨
      (((l.took d o).afterRestart d).state = .ready ∧ ∀ e, (((l.took d o).afterRestart d).half e).seg.state = .done) := by
  have half : ∀ e, ((l.took d o).afterRestart d).half e = if e = d then o.half else l.half e := fun e =>
    (afterRestart_half _ d e).trans (Lane.took_half l d e o)
  have atD : (l.took d o).half d = o.half := (Lane.took_half l d d o).trans (if_pos rfl)
  have running : o.half.seg.state ≠ .idle := by rcases hx with e | e <;> rw [e] <;> nofun
  rcases ht with ht | ht
  · refine .inl ⟨?_, fun e => ?_⟩
    · unfold Lane.afterRestart
      rw [if_neg fun c => by rw [Lane.took_state, ht] at c; exact nomatch c.1]
      exact (Lane.took_state l d o).trans ht
    · rw [half]
      split
      · exact running
      · exact running_of_train h ht e
  · rcases hx with hx | hx
    · refine .inl ⟨?_, fun e => ?_⟩
      · unfold Lane.afterRestart
        rw [if_pos ⟨(Lane.took_state l d o).trans ht, atD.symm ▸ hx⟩]
      · rw [half]
        split
        · exact running
        · rw [done_of_ready h (.inl ht) e]
          nofun
    · refine .inr ⟨?_, fun e => ?_⟩
      · unfold Lane.afterRestart
        rw [if_neg fun c => by rw [atD, hx] at c; exact nomatch c.2]
        exact (Lane.took_state l d o).trans ht
      · rw [half]
        split
        · exact hx
        · exact done_of_ready h (.inl ht) e

/-- Each rewriting of a lane keeps its segments in states that its lane state allows. -/
theorem segmentLaw_invariant : LaneInvariant fun l => l.segmentLaw = true where
  reset := by decide
  side {ctx l d h} hl e := segmentLaw_congr hl (Lane.setHalf_state _ _ _) fun f => by
    rw [Lane.half_setHalf]
    split
    · next hf => rw [hf, e.segment]
    · rfl
  ignored {ctx l d o} hl e _ hn := by
    refine segmentLaw_congr hl (Lane.took_state _ _ _) fun f => ?_
    rw [Lane.took_half]
    split
    · next hf =>
      rcases e.segment with hs | ⟨hi, hc, hx⟩
      · rw [hf, hs]
      · refine absurd ⟨?_, by rcases hx with e | e <;> rw [e] <;> nofun⟩ hn
        rcases state_of_running hl hi with ht | ht | ht
        · exact .inl ht
        · exact .inr ht
        · exact absurd ht hc
    · rfl
  followed {ctx l d o} hl e := by
    have ready : ∀ {m : Lane}, m.readyDue → Lane.segmentLaw { m with state := .ready } = true := fun hm =>
      segmentLaw_ready (.inl rfl) fun f => by
        cases f
        · exact hm.2.1
        · exact hm.2.2
    refine ⟨fun due => ready due, fun notDue => ?_⟩
    rcases e.segment with hs | ⟨hi, hc, hx⟩
    · have took : (l.took d o).segmentLaw = true := segmentLaw_congr hl (Lane.took_state _ _ _) fun f => by
        rw [Lane.took_half]
        split
        · next hf => rw [hf, hs]
        · rfl
      unfold Lane.afterRestart
      split
      · next c =>
        have := done_of_ready took (.inl c.1) d
        rw [c.2] at this
        cases this
      · exact took
    · have ht : l.state = .train ∨ l.state = .ready := by
        rcases state_of_running hl hi with ht | ht | ht
        · exact .inl ht
        · exact .inr ht
        · exact absurd ht hc
      rcases afterRestart_frame hl ht hx with ⟨hs, hd⟩ | ⟨hs, hd⟩
      · exact segmentLaw_train hs hd notDue
      · exact segmentLaw_ready (.inl hs) hd
  fails {l l'} d r _ _ _ _ _ := by
    refine segmentLaw_resting ?_ rfl rfl
    rcases Lane.fail_state d r l' with e | e <;> rw [e] <;> exact ⟨nofun, nofun, nofun⟩
  carries {l} hl hs := segmentLaw_ready (.inr rfl) fun d => by
    cases d
    · exact done_of_ready hl (.inl hs) .S
    · exact done_of_ready hl (.inl hs) .C
  pulled {l} hl hs := segmentLaw_ready (.inl rfl) fun d => by
    have abandoned : ∀ h : Half, (h.abandon .watch).seg = h.seg := fun h => by
      unfold Half.abandon
      split <;> rfl
    rw [show l.pullBack.half d = (l.half d).abandon .watch by cases d <;> rfl, abandoned]
    exact done_of_ready hl (.inr hs) d
  moves {s i f} m hl := by
    cases m with
    | drop _ => exact segmentLaw_trainFresh _ _
    | quiet _ => exact segmentLaw_trainFresh _ _
    | watchRetrain _ => exact segmentLaw_trainFresh _ _
    | applyCase _ => exact segmentLaw_takeCase _ _ hl
    | retrain _ _ => exact segmentLaw_trainFresh _ _
    | hold p _ => exact segmentLaw_addHold _ hl
    | release p _ => exact segmentLaw_goOn _ hl
  request _ hl := hl
  cleared hl := hl
  asserted hl := by
    unfold Lane.assertLine
    split
    · exact hl
    · exact segmentLaw_addHold _ hl
  released _ hl := segmentLaw_goOn _ hl
  restarted {l} cfg hl := by
    unfold Lane.softReset
    dsimp only
    split
    · next ho =>
      exact segmentLaw_resting (by rw [Lane.mapHalves_state]; simp [ho]) rfl rfl
    · exact segmentLaw_goOn cfg (segmentLaw_resting ⟨nofun, nofun, nofun⟩ rfl rfl)
  off _ := segmentLaw_resting ⟨nofun, nofun, nofun⟩ rfl rfl
  enabled _ _ _ _ := segmentLaw_goOn _ (segmentLaw_resting ⟨nofun, nofun, nofun⟩ rfl rfl)
  handed _ _ hl := hl

/-! ## What a scan cannot break -/

/-- A property of a side that no scanner, no reading at the search and no reading at the watch breaks. -/
structure ScanInvariant (P : Half → Prop) : Prop where
  scanner {h : Half} (x : Scanner) : P h → P { h with scan := x }
  search {h : Half} (ctx : Ctx) (r : Fom) : P h → P (h.searchReading ctx r).half
  watch {h : Half} (ctx : Ctx) (r : Fom) : P h → P (h.watchReading ctx r).half

namespace ScanInvariant
variable {P : Half → Prop} {h : Half} (hP : ScanInvariant P) (ctx : Ctx)
include hP

theorem handReading (o : Origin) (r : Fom) (hh : P h) : P (h.handReading ctx o r).half := by
  cases o
  · exact hP.search ctx r hh
  · exact hP.watch ctx r hh
  · exact hh

theorem startScan (o : Origin) (hh : P h) : P (h.startScan ctx o).half := by
  unfold Half.startScan
  split
  · exact hP.scanner _ hh
  · exact hP.handReading ctx o _ (hP.scanner _ hh)

theorem startWaiting (hh : P h) : P (h.startWaiting ctx).half := by
  unfold Half.startWaiting
  split
  · dsimp only
    split
    · exact hP.startScan ctx _ (hP.scanner _ hh)
    · exact hP.scanner _ hh
  · exact hh

theorem endScan (o : Origin) (r : Reading) (hh : P h) : P (h.endScan ctx o r).half := by
  have read := hP.handReading ctx o r.fom (h := h.record r) (hP.scanner _ hh)
  unfold Half.endScan Out.andThen
  split
  · exact read
  · exact hP.startWaiting ctx read

theorem endEdge (sc : Scan) (v : Nat) (hh : P h) : P (h.endEdge ctx sc v).half := by
  unfold Half.endEdge
  dsimp only
  split
  · exact hP.scanner _ hh
  · exact hP.endScan ctx _ _ hh

theorem scanLosesLock (hh : P h) : P (h.scanLosesLock ctx).half := by
  unfold Half.scanLosesLock
  split
  · exact hP.endScan ctx _ _ hh
  · exact hh

theorem requestSearchScan (hh : P h) : P (h.requestSearchScan ctx).half := by
  unfold Half.requestSearchScan
  split
  · exact hP.scanner _ hh
  · exact hP.startScan ctx _ hh

theorem requestWatchScan (hh : P h) : P (h.requestWatchScan ctx).half := by
  unfold Half.requestWatchScan
  split
  · exact hh
  · exact hP.startScan ctx _ hh

theorem windowEnd (n : Nat) (hh : P h) : P (h.windowEnd ctx n).half := by
  unfold Half.windowEnd
  split
  · exact hh
  · split
    · exact hP.endEdge ctx _ _ hh
    · split
      · exact hP.scanner _ hh
      · exact hP.endEdge ctx _ _ hh

end ScanInvariant

/-! ## A segment in DETECT (R32, R87, R91, R94, R129) -/

theorem detectLaw_of_ne {h : Half} (hs : h.seg.state ≠ .detect) : h.detectLaw = true :=
  (detectLaw_iff h).mpr fun e => absurd e hs

/-- A search that has not started is handed no reading (R114). -/
theorem searchReading_none {h : Half} (ctx : Ctx) (r : Fom) (hq : h.search.phase = .none) :
    h.searchReading ctx r = Out.ok h := by
  unfold Half.searchReading
  rw [hq]

theorem detectLaw_scanInvariant : ScanInvariant fun h => h.detectLaw = true where
  scanner _ hh := hh
  search {h} ctx r hh := by
    by_cases hs : h.seg.state = .detect
    · obtain ⟨-, -, -, -, -, -, hq⟩ := (detectLaw_iff h).mp hh hs
      rw [searchReading_none ctx r (by rw [hq]; rfl)]
      exact hh
    · exact detectLaw_of_ne ((searchReading_searchOnly ctx h r).state ▸ hs)
  watch {h} ctx r hh := by
    unfold Half.watchReading
    split <;> exact hh

/-- DETECT entry clears all that the law speaks of (R32). -/
theorem detectEntry_detectLaw (h : Half) (p : Fin 4) : (h.detectEntry p).detectLaw = true :=
  (detectLaw_iff _).mpr fun _ => ⟨rfl, rfl, rfl, rfl, rfl, rfl, rfl⟩

theorem setIdle_detectLaw (h : Half) : h.setIdle.detectLaw = true := detectLaw_of_ne nofun

theorem SideEvent.detectLaw {ctx : Ctx} {l : Lane} {h : Half} {o : Out} (e : SideEvent ctx l h o)
    (hh : h.detectLaw = true) : o.half.detectLaw = true := by
  cases e with
  | lockLost => exact detectLaw_scanInvariant.scanLosesLock ctx hh
  | frame f hi _ =>
    refine detectLaw_of_ne fun hs => ?_
    rcases takeFrame_exchanging ctx f hi with e | e <;> rw [e] at hs <;> cases hs
  | settled ht =>
    refine detectLaw_of_ne fun hs => ?_
    rw [(requestSearchScan_scanOnly ctx h.stopSettle).state] at hs
    obtain ⟨-, -, -, -, -, -, hq⟩ := (detectLaw_iff h).mp hh hs
    exact ht (by rw [hq]; rfl)
  | watched _ => exact detectLaw_scanInvariant.requestWatchScan ctx hh
  | window n _ => exact detectLaw_scanInvariant.windowEnd ctx n hh

theorem SideChange.detectLaw {ctx : Ctx} {l : Lane} {h h' : Half} (e : SideChange ctx l h h')
    (hh : h.detectLaw = true) : h'.detectLaw = true := by
  cases e with
  | startRelock =>
    unfold Half.startRelock
    split <;> exact hh
  | stopReply =>
    refine (detectLaw_iff _).mpr fun hs => ?_
    obtain ⟨h1, h2, h3, h4, h5, h6, h7⟩ := (detectLaw_iff h).mp hh hs
    exact ⟨h1, h2, h3, h4, by rw [Half.stopReply, h5]; rfl, h6, h7⟩
  | measure _ _ _ => exact detectLaw_scanInvariant.startScan ctx _ hh
  | stopRelock | stopAcquire | stopTune | badFrame | suspect | setting => exact hh

/-- Both sides of a lane obey the law of DETECT. -/
def Lane.detectLaw (l : Lane) : Prop := ∀ d, (l.half d).detectLaw = true

theorem Lane.detectLaw.congr {l l' : Lane} (h : l.detectLaw) (hd : ∀ d, l'.half d = l.half d) : l'.detectLaw := fun d =>
  (hd d).symm ▸ h d

theorem Lane.detectLaw_of_sides {l : Lane} (hs : l.s.detectLaw = true) (hc : l.c.detectLaw = true) : l.detectLaw
  | .S => hs
  | .C => hc

theorem detectLaw_trainFresh (cfg : LegConfig) (l : Lane) : (l.trainFresh cfg).detectLaw :=
  Lane.detectLaw_of_sides (detectEntry_detectLaw _ _) (detectEntry_detectLaw _ _)

theorem detectLaw_enterDown (l : Lane) : l.enterDown.detectLaw :=
  Lane.detectLaw_of_sides (setIdle_detectLaw _) (setIdle_detectLaw _)

theorem Lane.detectLaw.goOn {l : Lane} (cfg : LegConfig) (h : l.detectLaw) : (l.goOn cfg).detectLaw := by
  unfold Lane.goOn
  split
  · exact detectLaw_trainFresh cfg l
  · exact h

theorem Lane.detectLaw.hold {l : Lane} (h : l.detectLaw) (x : HoldSet) : Lane.detectLaw { l with hold := x } :=
  h.congr fun d => by cases d <;> rfl

theorem Lane.detectLaw.addHold {l : Lane} (x : HoldSet) (h : l.detectLaw) : (l.addHold x).detectLaw := by
  unfold Lane.addHold
  split
  · exact h.hold x
  · exact (detectLaw_enterDown l).hold x

theorem Lane.detectLaw.takeCase {l : Lane} (cfg : LegConfig) (pair : Option SwitchLane) (h : l.detectLaw) :
    (l.takeCase cfg pair).detectLaw := by
  unfold Lane.takeCase
  split
  · exact h
  · split
    · exact Lane.detectLaw.goOn cfg ((detectLaw_enterDown l).congr fun d => by cases d <;> rfl)
    · exact h.congr fun d => by cases d <;> rfl

/-- Each rewriting of a lane keeps the law of DETECT at both sides. -/
theorem detectLaw_invariant : LaneInvariant Lane.detectLaw where
  reset := Lane.detectLaw_of_sides (detectLaw_of_ne nofun) (detectLaw_of_ne nofun)
  side {ctx l d h} hl e f := by
    rw [Lane.half_setHalf]
    split
    · exact e.detectLaw (hl d)
    · exact hl f
  ignored {ctx l d o} hl e _ _ f := by
    rw [Lane.took_half]
    split
    · exact e.detectLaw (hl d)
    · exact hl f
  followed {ctx l d o} hl e := by
    have after : ((l.took d o).afterRestart d).detectLaw := fun f => by
      rw [afterRestart_half, Lane.took_half]
      split
      · exact e.detectLaw (hl d)
      · exact hl f
    exact ⟨fun _ => after.congr fun f => by cases f <;> rfl, fun _ => after⟩
  fails _ _ _ _ _ _ _ := Lane.detectLaw_of_sides (setIdle_detectLaw _) (setIdle_detectLaw _)
  carries hl _ := Lane.detectLaw_of_sides (hl .S) (hl .C)
  pulled {l} hl _ := by
    have abandoned : ∀ {h : Half}, h.detectLaw = true → (h.abandon .watch).detectLaw = true := fun {h} hh => by
      unfold Half.abandon
      split <;> exact hh
    exact Lane.detectLaw_of_sides (abandoned (hl .S)) (abandoned (hl .C))
  moves {s i f} m hl := by
    have fresh := detectLaw_trainFresh (s.legConfig i)
    cases m with
    | drop _ => exact (fresh (s.lane i)).congr fun d => by cases d <;> rfl
    | quiet _ => exact fresh _
    | watchRetrain _ => exact (fresh (s.lane i)).congr fun d => by cases d <;> rfl
    | applyCase _ => exact hl.takeCase _ _
    | retrain _ _ => exact fresh _
    | hold p _ => exact hl.addHold _
    | release p _ => exact (hl.hold _).goOn _
  request _ hl := hl.congr fun d => by cases d <;> rfl
  cleared hl := Lane.detectLaw_of_sides (hl .S) (hl .C)
  asserted hl := by
    unfold Lane.assertLine
    split
    · exact hl
    · exact hl.addHold _
  released _ hl := (hl.hold _).goOn _
  restarted {l} cfg _ := by
    have side : ∀ (h : Half) (p : Fin 4), (h.softReset p).detectLaw = true := fun _ _ => detectLaw_of_ne nofun
    unfold Lane.softReset
    dsimp only
    split
    · exact Lane.detectLaw_of_sides (side _ _) (side _ _)
    · exact Lane.detectLaw.goOn cfg (Lane.detectLaw_of_sides (side _ _) (side _ _))
  off _ := Lane.detectLaw_of_sides (setIdle_detectLaw _) (setIdle_detectLaw _)
  enabled cfg _ _ _ := Lane.detectLaw.goOn cfg (Lane.detectLaw_of_sides (setIdle_detectLaw _) (setIdle_detectLaw _))
  handed _ _ hl := hl.congr fun d => by cases d <;> rfl

/-- Settles O52: every rewriting of a lane keeps each of the two laws. -/
theorem stepsKeepTheSegmentLaw : Obligations.StepsKeepTheSegmentLaw := by
  intro s t h
  refine ⟨fun hs => segmentLaw_invariant.step hs h, fun hs i => ?_⟩
  have kept := detectLaw_invariant.step (fun i => Lane.detectLaw_of_sides (hs i).1 (hs i).2) h i
  exact ⟨kept .S, kept .C⟩

end Sys2Proof.Machine
end

section
/-! SUPPORT. Every command completes (R37, R144), and none touches the queue. -/

namespace Sys2Proof.Machine

/-- A command that goes on to a next state. -/
def Completes (o : Host.Outcome State Fault Refusal) : Prop := ∃ t, o = .next t

theorem Completes.next (t : State) : Completes (.next t) := ⟨t, rfl⟩

theorem Completes.ite {c : Prop} [Decidable c] {a b : Host.Outcome State Fault Refusal} (ha : Completes a)
    (hb : Completes b) : Completes (if c then a else b) := by
  split
  · exact ha
  · exact hb

theorem signalLost_completes (r : Receiver) (s : State) : Completes (execSignalLost r s) := by
  unfold execSignalLost
  refine .ite ?_ (.next s)
  dsimp only
  split <;> exact .next _

theorem lockLost_completes (r : Receiver) (s : State) : Completes (execLockLost r s) := by
  unfold execLockLost
  refine .ite ?_ (.next s)
  dsimp only
  split <;> exact .next _

theorem lockRegained_completes (r : Receiver) (s : State) : Completes (execLockRegained r s) := by
  unfold execLockRegained
  refine .ite ?_ (.next s)
  dsimp only
  split <;> exact .next _

theorem frameReceived_completes (r : Receiver) (bits : BitVec 94) (s : State) :
    Completes (execFrameReceived r bits s) := by
  unfold execFrameReceived
  refine .ite ?_ (.next s)
  split
  · exact .ite (.next _) (.next _)
  · exact .next s

/-- A timer that is stopped does not expire; one that runs does what its expiry says (log 1). -/
theorem timers_complete (i : LaneId) (d : Side) (s : State) :
    Completes (execTAcquireExpiry i d s) ∧ Completes (execTRelockExpiry i d s) ∧ Completes (execTTuneExpiry i d s) ∧
      Completes (execTReplyExpiry i d s) ∧ Completes (execTSettleExpiry i d s) := by
  unfold execTAcquireExpiry execTRelockExpiry execTTuneExpiry execTReplyExpiry execTSettleExpiry
  refine ⟨?_, ?_, ?_, ?_, ?_⟩
  all_goals split <;> exact .next _

theorem watchPeriodExpiry_completes (s : State) : Completes (execWatchPeriodExpiry s) := by
  unfold execWatchPeriodExpiry
  split <;> exact .next _

theorem actionLaneOperation_completes (p : PortId) (b : Fin 8) (s : State) :
    Completes (execActionLaneOperation p b s) := by
  unfold execActionLaneOperation
  split <;> exact .next _

/-- A byte that the port's phase does not accept has no effect (log 21). -/
theorem bytes_complete (p : PortId) (b : Byte) (s : State) :
    Completes (execPointerByte p b s) ∧ Completes (execDataByteWritten p b s) ∧ Completes (execReadByteSent p s) := by
  unfold execPointerByte execDataByteWritten execReadByteSent
  refine ⟨?_, ?_, ?_⟩
  all_goals split <;> exact .next _

theorem exec_completes (c : Instr) (s : State) : Completes (exec c s) := by
  cases c <;> simp only [exec]
  case switchResetReleased | imageLoadComplete | legResetReleased | signalPresent | tQuietExpiry | scanWindowEnd |
      watchRetrainRequest | applyLaneCase | hostNack | readPartEnd | registerWrite => exact .ite (.next _) (.next _)
  case busStartAddress => exact .ite (.ite (.next _) (.next _)) (.next _)
  case signalLost r => exact signalLost_completes r s
  case lockLost r => exact lockLost_completes r s
  case lockRegained r => exact lockRegained_completes r s
  case frameReceived r bits => exact frameReceived_completes r bits s
  case tAcquireExpiry i d => exact (timers_complete i d s).1
  case tRelockExpiry i d => exact (timers_complete i d s).2.1
  case tTuneExpiry i d => exact (timers_complete i d s).2.2.1
  case tReplyExpiry i d => exact (timers_complete i d s).2.2.2.1
  case tSettleExpiry i d => exact (timers_complete i d s).2.2.2.2
  case watchPeriodExpiry => exact watchPeriodExpiry_completes s
  case actionLaneOperation p b => exact actionLaneOperation_completes p b s
  case pointerByte p b => exact (bytes_complete p b s).1
  case dataByteWritten p b => exact (bytes_complete p b s).2.1
  case readByteSent p => exact (bytes_complete p 0 s).2.2
  all_goals exact .next _

/-- No change of the part touches the queue. -/
theorem Change.pending {s t : State} (c : Change s t) : t.pending = s.pending := by
  cases c with
  | lines | blocks | loadFails | lineAsserted | lineReleased | watch | side | dropRequest | clear | port | track => rfl
  | receiver r _ => cases r <;> rfl
  | load img _ _ =>
    rcases loadGood_cases { s with store := img } img with ⟨-, e⟩ | ⟨r, k, e⟩ <;> exact (congrArg State.pending e).trans rfl
  | event i d o _ => exact (applyOut_lanesOnly s i d o).pending
  | fail i d r => exact (failSegment_lanesOnly s i d r).pending
  | move i f _ => exact (moveLane_eq s i f).1.pending
  | config _ e => rw [e.frame]
  | apply => rcases apply_cases s with ⟨r, k, e⟩ | ⟨-, -, e⟩ <;> exact (congrArg State.pending e).trans rfl
  | softReset hp => rw [softReset_running hp]

/-- Settles O2: each arm answers a next state, and the chain of changes that leads there keeps the queue. -/
theorem commandsLeaveTheQueueAlone : Obligations.CommandsLeaveTheQueueAlone := by
  intro c s
  obtain ⟨t, ht⟩ := exec_completes c s
  exact ⟨t, ht, Changes.keep (P := fun u => u.pending = s.pending) (fun _ _ h c => c.pending.trans h)
    (exec_leads c s t ht) rfl⟩

end Sys2Proof.Machine
end

section
/-! SUPPORT. The part at reset (R28, R31, R54, R102, R129, R130, R143, R173, R187), and the entries of segments and lanes, field by
field (R32, R39 to R42, R55, R56, R76, R109, R114). -/

namespace Sys2Proof.Machine

/-- Settles O4: the tables of State.reset hold one value each, and the resets are equations of whole states. -/
theorem resetsClearThePart : Obligations.ResetsClearThePart := by
  have lane : ∀ i, State.reset.lane i = Lane.reset := Tab.get_fill _
  have half : ∀ i d, State.reset.half i d = Half.reset := fun i d => by
    rw [State.half, lane]
    cases d <;> rfl
  have port : ∀ p, State.reset.port p = Port.reset := Tab.get_fill _
  refine ⟨⟨rfl, rfl, rfl, rfl, fun k => ⟨Tab.get_fill _ k, Tab.get_fill _ k⟩, fun i => ?_, fun i e => ?_, fun p => ?_⟩,
    fun s line legLines => ⟨rfl, rfl, fun hs => if_pos hs⟩⟩
  · rw [lane]
    exact ⟨rfl, rfl, rfl, rfl, rfl, rfl, rfl, rfl⟩
  · rw [half]
    decide
  · rw [port]
    decide

/-! ## Scans abandoned (R109) -/

/-- Abandoning a scan of one origin leaves a scan of another (R109). -/
theorem abandon_eq (h : Half) (o : Origin) : h.abandon o =
    { h with scan := { h.scan with inFlight := h.scan.inFlight.filter fun sc => decide (sc.origin ≠ o) } } := by
  obtain ⟨seg, tx, resp, req, search, ⟨inFlight, waiting, last, count⟩, watch, fe, wa⟩ := h
  unfold Half.abandon Half.scanning
  cases inFlight with
  | none => rfl
  | some sc => by_cases e : sc.origin = o <;> simp [e, Option.filter]

/-- The search ends HALTED, but for a search that has not begun or has accepted (R114). -/
theorem halt_eq (q : Search) : q.halt = { q with
    tSettle := none
    phase := if q.phase = .none ∨ q.phase = .accepted then q.phase else .halted } := by
  obtain ⟨phase, _⟩ := q
  cases phase <;> rfl

/-- Going IDLE, field by field (R39). -/
theorem setIdle_eq (h : Half) : h.setIdle = { h with
    seg := { h.seg with state := .idle, tAcquire := none, tRelock := none, tTune := none }
    req := { h.req with outstanding := none, handed := none, tReply := none }
    search := { h.search with
      tSettle := none
      phase := if h.search.phase = .none ∨ h.search.phase = .accepted then h.search.phase else .halted }
    scan := { h.scan with
      inFlight := h.scan.inFlight.filter fun sc => decide (sc.origin ≠ .search), waiting := false } } := by
  unfold Half.setIdle
  rw [abandon_eq]
  dsimp only
  rw [halt_eq]

/-- With every scan abandoned, going IDLE finds none to abandon (R40, R41). -/
theorem setIdle_abandonAll_eq (h : Half) : h.abandonAll.setIdle =
    { h.setIdle with scan := { h.scan with inFlight := none, waiting := false } } := by
  rw [setIdle_eq, setIdle_eq]
  rfl

/-- Settles O8: each entry is the composition of going IDLE, DETECT entry and the scans abandoned. -/
theorem segmentAndLaneEntriesFollowTheRules : Obligations.SegmentAndLaneEntriesFollowTheRules := by
  unfold Obligations.SegmentAndLaneEntriesFollowTheRules
  intro without ended idled stopped detects fresh unwatched
  have idle : ∀ h : Half, h.setIdle = idled h := setIdle_eq
  have stop : ∀ h : Half, h.abandonAll.setIdle = stopped h := fun h => by rw [setIdle_abandonAll_eq, idle]
  have train : ∀ (h : Half) (p : Fin 4), ((h.abandon .watch).setIdle).detectEntry p = fresh h p := fun h p => by
    have order : ∀ x : Option Scan, without .search (without .watch x) = without .watch (without .search x) := fun x => by
      simp only [without, Option.filter_filter, Bool.and_comm]
    rw [abandon_eq, setIdle_eq]
    simp only [fresh, detects, ← order]
    rfl
  have unwatch : ∀ h : Half, h.abandon .watch = unwatched h := fun h => abandon_eq h .watch
  refine ⟨fun h p => ⟨idle h, rfl⟩, fun l cfg => ⟨?_, ?_, ?_, rfl, ?_⟩⟩
  · unfold Lane.trainFresh
    rw [train, train]
  · unfold Lane.enterDown
    rw [stop, stop]
  · unfold Lane.enterOff Lane.loadTx
    rw [stop, stop]
    rfl
  · unfold Lane.pullBack
    simp only [unwatch]
    rfl

end Sys2Proof.Machine
end

section
/-! SUPPORT. What an event on one side leaves of its lane: the lane stays, fails or drops (R36, R37, R44, R48), and the ends of
scans that no engine answers (R104, R108). -/

namespace Sys2Proof.Machine

/-! ## Signal and lock belong to a pair alone -/

@[simp] theorem State.lane_setRx (s : State) (r : Receiver) (x : RxLine) (i : LaneId) : (s.setRx r x).lane i = s.lane i := by
  cases r <;> rfl

@[simp] theorem State.half_setRx (s : State) (r : Receiver) (x : RxLine) (i : LaneId) (d : Side) :
    (s.setRx r x).half i d = s.half i d := by
  cases r <;> rfl

@[simp] theorem State.legOf_setRx (s : State) (r : Receiver) (x : RxLine) (i : LaneId) :
    (s.setRx r x).legOf i = s.legOf i := by
  cases r <;> rfl

@[simp] theorem State.legState_setRx (s : State) (r : Receiver) (x : RxLine) : (s.setRx r x).legState = s.legState := by
  cases r <;> rfl

@[simp] theorem State.standing_setRx (s : State) (r q : Receiver) (x : RxLine) :
    (s.setRx r x).standing q = s.standing q := by
  cases r <;> cases q <;> rfl

@[simp] theorem State.rx_setRx (s : State) (r : Receiver) (x : RxLine) : (s.setRx r x).rx r = x := by
  cases r <;> exact Tab.get_set_self _ _ _

theorem LanesOnly.rx {s t : State} (h : LanesOnly s t) (r : Receiver) : t.rx r = s.rx r := by
  rw [h]
  cases r <;> rfl

/-! ## The commands of a receiver, where a segment stands on its pair -/

section Receiver
variable {r : Receiver} {s : State} {i : LaneId} {d : Side}

theorem signalLost_eq (hr : (s.rx r).signal = true) (hs : s.standing r = some (i, d)) : exec (.signalLost r) s =
    .next (engineEvent s ((s.setRx r ⟨false, false⟩).segmentLosesSignal i d)) := by
  show execSignalLost r s = _
  unfold execSignalLost
  simp only [hr, if_true, State.standing_setRx, hs]

theorem lockLost_eq (hr : (s.rx r).lock = true) (hs : s.standing r = some (i, d)) : exec (.lockLost r) s =
    .next (engineEvent s ((s.setRx r { s.rx r with lock := false }).segmentLosesLock i d)) := by
  show execLockLost r s = _
  unfold execLockLost
  simp only [hr, if_true, State.standing_setRx, hs]

theorem frameReceived_eq (bits : BitVec 94) (hr : s.rx r = ⟨true, true⟩) (hs : s.standing r = some (i, d))
    (hi : (s.half i d).seg.state ≠ .idle) : exec (.frameReceived r bits) s =
    .next (engineEvent s (s.takeReception i d (receive (s.rxPolarity r) bits))) := by
  show execFrameReceived r bits s = _
  unfold execFrameReceived
  rw [hr, if_pos ⟨rfl, rfl⟩, hs]
  exact if_neg hi

end Receiver

/-! ## A lane that stores what an event left -/

theorem Lane.took_ok (l : Lane) (d : Side) (h : Half) : l.took d (Out.ok h) = l.setHalf d h := by
  unfold Lane.took Out.ok
  rw [Bool.or_false]
  cases d <;> rfl

/-- An event that fails no segment, and after which the lane has nothing to follow, is stored (R43, R47). -/
theorem applyOut_stored {s : State} {i : LaneId} {d : Side} {o : Out} (hf : o.fail = none)
    (hr : ¬ ((s.lane i).state = .ready ∧ o.half.seg.state = .exchange)) (hd : ¬ ((s.lane i).took d o).readyDue) :
    s.applyOut i d o = s.setLane i ((s.lane i).took d o) := by
  have stays : ((s.lane i).took d o).afterRestart d = (s.lane i).took d o := by
    unfold Lane.afterRestart
    rw [Lane.took_state, Lane.took_half, if_pos rfl, if_neg hr]
  rcases applyOut_eq s i d o with ⟨r, e, -⟩ | ⟨r, e, -⟩ | ⟨-, e⟩
  · rw [hf] at e
    cases e
  · rw [hf] at e
    cases e
  · change _ = (s.setLane i (((s.lane i).took d o).afterRestart d)).readyCheck i at e
    rw [stays] at e
    rw [e]
    rcases readyCheck_eq (s.setLane i ((s.lane i).took d o)) i with ⟨e', -⟩ | ⟨h1, h2, h3, -⟩
    · exact e'
    · rw [State.lane_setLane_self] at h1 h2 h3
      exact absurd ⟨h1, h2, h3⟩ hd

/-- READY is due for no lane with a segment short of DONE (R43). -/
theorem not_readyDue {l : Lane} {d : Side} (h : (l.half d).seg.state ≠ .done) : ¬ l.readyDue := by
  rintro ⟨-, hs, hc⟩
  cases d
  · exact h hs
  · exact h hc

/-- An event that leaves a segment in IDLE or DETECT and fails none is stored (R33, R39). -/
theorem applyOut_early {s : State} {i : LaneId} {d : Side} {o : Out} (hf : o.fail = none)
    (hs : o.half.seg.state = .idle ∨ o.half.seg.state = .detect) :
    s.applyOut i d o = s.setLane i ((s.lane i).took d o) := by
  refine applyOut_stored hf (fun c => ?_) (not_readyDue (d := d) ?_)
  · rcases hs with e | e <;> rw [e] at c <;> cases c.2
  · rw [Lane.took_half, if_pos rfl]
    rcases hs with e | e <;> rw [e] <;> nofun

/-- In a lane whose segments are as its state allows, an event that keeps the segment state is stored (R43, R47). -/
theorem applyOut_steady {s : State} {i : LaneId} {d : Side} {o : Out} (hl : (s.lane i).segmentLaw = true)
    (hf : o.fail = none) (hs : o.half.seg.state = (s.half i d).seg.state) :
    s.applyOut i d o = s.setLane i ((s.lane i).took d o) := by
  have took : ((s.lane i).took d o).segmentLaw = true := segmentLaw_congr hl (Lane.took_state _ _ _) fun e => by
    rw [Lane.took_half]
    split
    · next he => rw [he, hs]; rfl
    · rfl
  refine applyOut_stored hf (fun c => ?_) fun c => ?_
  · have done : (s.half i d).seg.state = .done := done_of_ready hl (.inl c.1) d
    rw [← hs, c.2] at done
    cases done
  · obtain ⟨ht, hd, hc⟩ := c
    rw [Lane.segmentLaw, ht] at took
    simp [hd, hc] at took

/-! ## Scans that end outside the search -/

theorem startWaiting_idle {h : Half} (ctx : Ctx) (hs : h.seg.state ≠ .exchange) :
    h.startWaiting ctx = Out.ok { h with scan := { h.scan with waiting := false } } := by
  obtain ⟨seg, tx, resp, req, search, ⟨inFlight, waiting, last, count⟩, watch, fe, wa⟩ := h
  unfold Half.startWaiting
  cases waiting with
  | false => rfl
  | true => exact if_neg hs

/-- A scan that the search did not ask for ends without a failure outside EXCHANGE (R108, R135). -/
theorem scanLosesLock_fail {h : Half} (ctx : Ctx) (hs : h.seg.state ≠ .exchange)
    (ho : ∀ sc, h.scan.inFlight = some sc → sc.origin ≠ .search) : (h.scanLosesLock ctx).fail = none := by
  have read : ∀ o, o ≠ .search → ∀ r : Reading, (h.endScan ctx o r).fail = none := by
    intro o hne r
    have fail : ((h.record r).handReading ctx o r.fom).fail = none := by
      cases o
      · exact absurd rfl hne
      · exact watchReading_fail ctx _ _
      · rfl
    unfold Half.endScan Out.andThen
    rw [fail]
    dsimp only
    rw [startWaiting_idle]
    · rfl
    · rw [((record_scanOnly h r).trans (handReading_scanOnly ctx _ o _)).state]
      exact hs
  unfold Half.scanLosesLock
  split
  · next sc e => exact read _ (ho sc e) _
  · rfl

/-- A loss of lock at a segment in IDLE or DETECT, with no SEARCH scan in flight, leaves the scanner and the watch at most
changed (R33, R39, R108). -/
theorem scanLosesLock_early {s : State} {i : LaneId} {d : Side}
    (hs : (s.half i d).seg.state = .idle ∨ (s.half i d).seg.state = .detect)
    (ho : ∀ sc, (s.half i d).scan.inFlight = some sc → sc.origin ≠ .search) :
    s.scanLosesLock i d = s.setLane i ((s.lane i).took d ((s.half i d).scanLosesLock (s.ctx i d))) := by
  refine applyOut_early (scanLosesLock_fail _ (fun e => ?_) ho) ?_
  · rcases hs with h | h <;> exact nomatch h.symm.trans e
  · rw [(scanLosesLock_scanOnly _ _).state]
    exact hs

/-- Going IDLE leaves no SEARCH scan in flight (R39, R109). -/
theorem setIdle_noSearch (h : Half) (sc : Scan) (e : h.setIdle.scan.inFlight = some sc) : sc.origin ≠ .search := by
  rw [setIdle_eq] at e
  have := (Option.filter_eq_some_iff.mp e).2
  exact of_decide_eq_true this

/-! ## Failures and drops, as the lane's fields show them -/

/-- A statement of the two sides named by a Boolean is one of every side. -/
theorem forall_side {P : Side → Prop} : (∀ e : Bool, P (if e then .S else .C)) ↔ ∀ d, P d := by
  refine ⟨fun h d => ?_, fun h e => h _⟩
  cases d
  · exact h true
  · exact h false

@[simp] theorem setIdle_seg (h : Half) :
    h.setIdle.seg = { h.seg with state := .idle, tAcquire := none, tRelock := none, tTune := none } :=
  (congrArg Half.seg (setIdle_eq h)).trans rfl

@[simp] theorem setIdle_tx (h : Half) : h.setIdle.tx = h.tx := (congrArg Half.tx (setIdle_eq h)).trans rfl

@[simp] theorem setIdle_last (h : Half) : h.setIdle.scan.last = h.scan.last :=
  (congrArg (fun x : Half => x.scan.last) (setIdle_eq h)).trans rfl

@[simp] theorem setIdle_count (h : Half) : h.setIdle.scan.count = h.scan.count :=
  (congrArg (fun x : Half => x.scan.count) (setIdle_eq h)).trans rfl

@[simp] theorem abandon_seg (h : Half) (o : Origin) : (h.abandon o).seg = h.seg :=
  (congrArg Half.seg (abandon_eq h o)).trans rfl

theorem Lane.fail_half (l : Lane) (d e : Side) (r : FailReason) : (l.fail d r).half e =
    Half.setIdle (if e = d then { l.half d with seg := { (l.half d).seg with reason := r } } else l.half e) := by
  cases d <;> cases e <;> rfl

theorem Lane.trainFresh_half (cfg : LegConfig) (l : Lane) (e : Side) : (l.trainFresh cfg).half e =
    Half.detectEntry (((l.half e).abandon .watch).setIdle) (cfg.txPreset e) := by
  cases e <;> rfl

theorem Side.opposite_ne (d : Side) : Side.opposite d ≠ d := by
  cases d
  · nofun
  · nofun

/-- What a drop shows of one side (R32, R48). -/
def Lane.sideDropped (l m : Lane) (d : Side) : Prop :=
  (m.half d).seg.state = .detect ∧ (m.half d).seg.own = (l.half d).seg.own + 1 ∧ (m.half d).seg.partner = none ∧
    (m.half d).seg.reason = (l.half d).seg.reason

/-- What a failure shows of one side beside its reason (R39). -/
def Lane.sideFailed (l m : Lane) (d : Side) : Prop :=
  (m.half d).seg.state = .idle ∧ (m.half d).tx = (l.half d).tx ∧ (m.half d).seg.own = (l.half d).seg.own

/-- What a scan that ends may change is not what a drop shows. -/
theorem Lane.dropsTo.took {l m : Lane} {d : Side} {o : Out} (h : l.dropsTo m) (e : ScanOnly (m.half d) o.half) :
    l.dropsTo (m.took d o) := by
  obtain ⟨hs, hd, ht, hf, hr, hc, hh, hx⟩ := h
  refine ⟨(Lane.took_state m d o).trans hs, (Lane.setHalf_drops m d _).trans hd, (Lane.setHalf_trainings m d _).trans ht,
    (Lane.setHalf_failures m d _).trans hf, (Lane.setHalf_retrains m d _).trans hr, (Lane.took_fc m d o).trans hc,
    (Lane.took_hold m d o).trans hh, (forall_side (P := l.sideDropped _)).mpr fun f => ?_⟩
  obtain ⟨-, -, -, state, own, partner, reason, -⟩ := e.keeps
  have side := (forall_side (P := l.sideDropped m)).mp hx f
  unfold Lane.sideDropped at side ⊢
  rw [Lane.took_half]
  split
  · next hf =>
    rw [hf] at side ⊢
    rwa [state, own, partner, reason]
  · exact side

/-- What a scan that ends may change is not what a failure shows. -/
theorem Lane.failsTo.took {l m : Lane} {d f : Side} {r : FailReason} {o : Out} (h : l.failsTo m f r)
    (e : ScanOnly (m.half d) o.half) : l.failsTo (m.took d o) f r := by
  obtain ⟨hc, hs, hq, hf, ht, hd, hr, hh, hx, hy, hz⟩ := h
  obtain ⟨tx, -, -, state, own, -, reason, -⟩ := e.keeps
  have reasons : ∀ g, ((m.took d o).half g).seg.reason = (m.half g).seg.reason := fun g => by
    rw [Lane.took_half]
    split
    · next hg => rw [hg, reason]
    · rfl
  refine ⟨(Lane.took_fc m d o).trans hc, (Lane.took_state m d o).trans hs, (Lane.setHalf_tQuiet m d _).trans hq,
    (Lane.setHalf_failures m d _).trans hf, (Lane.setHalf_trainings m d _).trans ht, (Lane.setHalf_drops m d _).trans hd,
    (Lane.setHalf_retrains m d _).trans hr, (Lane.took_hold m d o).trans hh, (reasons f).trans hx, (reasons _).trans hy,
    (forall_side (P := l.sideFailed _)).mpr fun g => ?_⟩
  have side := (forall_side (P := l.sideFailed m)).mp hz g
  unfold Lane.sideFailed at side ⊢
  rw [Lane.took_half]
  split
  · next hg =>
    rw [hg] at side ⊢
    rwa [state, own, tx]
  · exact side

/-- The failure of a side of which timers alone have changed (R37, R39, R44, R45). -/
theorem Lane.fail_failsTo (l : Lane) (d : Side) (r : FailReason) {h : Half} (htx : h.tx = (l.half d).tx)
    (hown : h.seg.own = (l.half d).seg.own) : l.failsTo ((l.setHalf d h).fail d r) d r := by
  have fc : (l.setHalf d h).fc = l.fc := Lane.setHalf_fc l d h
  have other : ∀ {x : Half} {e : Side}, e ≠ d → (l.setHalf d x).half e = l.half e := fun he => by
    rw [Lane.half_setHalf, if_neg he]
  refine ⟨?_, ?_, ?_, ?_, ?_, ?_, ?_, ?_, ?_, ?_, (forall_side (P := l.sideFailed _)).mpr fun e => ?_⟩
  case refine_9 => rw [Lane.fail_half, if_pos rfl, setIdle_seg]
  case refine_10 => rw [Lane.fail_half, if_neg (Side.opposite_ne d), setIdle_seg, other (Side.opposite_ne d)]
  case refine_11 =>
    unfold Lane.sideFailed
    rw [Lane.fail_half, setIdle_seg, setIdle_tx]
    split
    · next he =>
      rw [he, Lane.half_setHalf_self]
      exact ⟨rfl, htx, hown⟩
    · next he =>
      rw [other he]
      exact ⟨rfl, rfl, rfl⟩
  all_goals cases d <;> rfl

/-- The drop of a lane of which a side's timers alone have changed (R32, R42, R48). -/
theorem Lane.drop_dropsTo (l : Lane) (cfg : LegConfig) (d : Side) {h : Half} (hown : h.seg.own = (l.half d).seg.own)
    (hreason : h.seg.reason = (l.half d).seg.reason) :
    l.dropsTo { (l.setHalf d h).trainFresh cfg with drops := satInc counterMax (l.setHalf d h).drops } := by
  refine ⟨rfl, ?_, ?_, ?_, ?_, ?_, ?_, (forall_side (P := l.sideDropped _)).mpr fun e => ?_⟩
  case refine_7 =>
    have half : ∀ n, ({ (l.setHalf d h).trainFresh cfg with drops := n } : Lane).half e =
        ((l.setHalf d h).trainFresh cfg).half e := fun n => by cases e <;> rfl
    unfold Lane.sideDropped
    rw [half, Lane.trainFresh_half]
    simp only [Half.detectEntry, setIdle_seg, abandon_seg, Lane.half_setHalf]
    split
    · next he =>
      rw [he, hown, hreason]
      exact ⟨trivial, rfl, trivial, rfl⟩
    · exact ⟨trivial, rfl, trivial, rfl⟩
  all_goals cases d <;> rfl

end Sys2Proof.Machine
end

section
/-! SUPPORT. Signal, lock and timers at one segment (R33, R34, R36, R37, R44, R45, R48, R56, R95, R104, R108, R139). -/

namespace Sys2Proof.Machine

section Segment
variable {s : State} {i : LaneId} {d : Side}

/-! ## A lane rewritten in a state -/

theorem onlyLane_setLane (s : State) (i : LaneId) (l : Lane) : onlyLane s (s.setLane i l) i :=
  ⟨fun _ hj => State.lane_setLane_ne s l hj, rfl⟩

theorem onlyLane.trans {t u : State} (h : onlyLane s t i) (h' : onlyLane t u i) : onlyLane s u i :=
  ⟨fun j hj => (h'.1 j hj).trans (h.1 j hj), h'.2.trans h.2⟩

/-- The Leg Engine's response looks at the other lanes, so what the lane itself stores before or after does not matter. -/
theorem pulledBack_around {t u v : State} {k : LegId} (h : pulledBack t u i k) (hs : onlyLane s t i)
    (hr : ∀ j, t.legOf j = s.legOf j) (hv : onlyLane u v i) : pulledBack s v i k := by
  obtain ⟨hj, hn, hk⟩ := h
  refine ⟨fun j hne hjk hc => ?_, fun j hne hnot => ?_, ?_⟩
  · rw [hv.1 j hne, ← hs.1 j hne]
    exact hj j hne ((hr j).trans hjk) ((congrArg Lane.state (hs.1 j hne)).trans hc)
  · rw [hv.1 j hne, ← hs.1 j hne]
    refine hn j hne ?_
    rwa [hr, hs.1 j hne]
  · rw [hv.2, hk, hs.2]

theorem setRx_onlyLane (s : State) (r : Receiver) (x : RxLine) (i : LaneId) : onlyLane s (s.setRx r x) i :=
  ⟨fun j _ => State.lane_setRx s r x j, State.legState_setRx s r x⟩

/-! ## Failures and drops of a lane of which one side's timers have changed -/

/-- Lane `i` with side `d` rewritten. -/
theorem modifyHalf_lane (f : Half → Half) :
    (s.modifyHalf i d f).lane i = (s.lane i).setHalf d (f (s.half i d)) := State.lane_setLane_self _ _ _

/-- A failure of a segment whose timer has just stopped (R33, R34, R37, R44, R95). -/
theorem failSegment_fails {f : Half → Half} (r : FailReason) (hl : (s.lane i).state = .train ∨ (s.lane i).state = .ready)
    (hs : (s.half i d).seg.state ≠ .idle) (hf : ∀ h, (f h).seg.state = h.seg.state ∧ (f h).tx = h.tx ∧
      (f h).seg.own = h.seg.own) :
    (s.lane i).failsTo (((s.modifyHalf i d f).failSegment i d r).lane i) d r ∧
      onlyLane s ((s.modifyHalf i d f).failSegment i d r) i ∧
      LanesOnly s ((s.modifyHalf i d f).failSegment i d r) := by
  obtain ⟨state, tx, own⟩ := hf (s.half i d)
  have fails : (s.modifyHalf i d f).failSegment i d r =
      (s.modifyHalf i d f).setLane i (((s.lane i).setHalf d (f (s.half i d))).fail d r) := by
    rw [failSegment_eq, modifyHalf_lane, if_pos]
    rw [Lane.setHalf_state, Lane.half_setHalf_self, state]
    exact ⟨hl, hs⟩
  rw [fails]
  refine ⟨?_, (onlyLane_setLane s i _).trans (onlyLane_setLane _ i _), (LanesOnly.setLane s i _).trans (.setLane _ i _)⟩
  rw [State.lane_setLane_self]
  exact Lane.fail_failsTo _ d r tx own

/-- A drop of a lane of which a side's timer has just stopped (R48, R56). -/
theorem drop_drops {f : Half → Half} {k : LegId} (hc : (s.lane i).state = .carry) (hk : s.legOf i = some k)
    (hf : ∀ h, (f h).seg.own = h.seg.own ∧ (f h).seg.reason = h.seg.reason) :
    (s.lane i).dropsTo (((s.modifyHalf i d f).drop i).lane i) ∧ pulledBack s ((s.modifyHalf i d f).drop i) i k ∧
      LanesOnly s ((s.modifyHalf i d f).drop i) := by
  have state : ((s.modifyHalf i d f).lane i).state = .carry := by rw [modifyHalf_lane, Lane.setHalf_state, hc]
  have pulled : pulledBack (s.modifyHalf i d f) ((s.modifyHalf i d f).drop i) i k := moveLane_pulledBack state nofun hk
  refine ⟨?_, ?_, (LanesOnly.setLane s i _).trans (drop_lanesOnly _ i)⟩
  · rw [drop_eq, (moveLane_eq _ i _).2.1, modifyHalf_lane]
    exact Lane.drop_dropsTo _ _ d (hf _).1 (hf _).2
  · exact pulledBack_around pulled (onlyLane_setLane s i _) (fun _ => rfl) ⟨fun _ _ => rfl, rfl⟩

theorem modifyHalf_id : s.modifyHalf i d id = s := by
  unfold State.modifyHalf
  rw [id, Lane.setHalf_half_self, State.setLane_lane_self]

/-! ## SIGNAL_LOST (R36, R37, R44, R48) -/

/-- A drop leaves both segments in DETECT and no SEARCH scan in flight (R32, R109). -/
theorem drop_half (s : State) (i : LaneId) (d : Side) : ((s.drop i).half i d).seg.state = .detect ∧
    ∀ sc, ((s.drop i).half i d).scan.inFlight = some sc → sc.origin ≠ .search := by
  have half : (s.drop i).half i d = Half.detectEntry ((((s.lane i).half d).abandon .watch).setIdle)
      ((s.legConfig i).txPreset d) := by
    rw [State.half, drop_eq, (moveLane_eq s i _).2.1, ← Lane.trainFresh_half]
    cases d <;> rfl
  rw [half]
  exact ⟨rfl, setIdle_noSearch _⟩

/-- A failure leaves the segment IDLE and no SEARCH scan in flight (R39, R109). -/
theorem fail_half_idle (l : Lane) (d : Side) (r : FailReason) : ((l.fail d r).half d).seg.state = .idle ∧
    ∀ sc, ((l.fail d r).half d).scan.inFlight = some sc → sc.origin ≠ .search := by
  rw [Lane.fail_half]
  exact ⟨congrArg SegControl.state (setIdle_seg _), setIdle_noSearch _⟩

/-- A loss at a segment in EXCHANGE or DONE, with the scan that ends by it, drops a lane in CARRY (R48, R108). -/
theorem segmentLosesSignal_carry {k : LegId} (hc : (s.lane i).state = .carry) (hk : s.legOf i = some k)
    (hs : (s.half i d).seg.state.watchesLine = true) :
    (s.lane i).dropsTo ((s.segmentLosesSignal i d).lane i) ∧ pulledBack s (s.segmentLosesSignal i d) i k ∧
      LanesOnly s (s.segmentLosesSignal i d) := by
  have lost : s.segmentLosesSignal i d = (s.drop i).scanLosesLock i d := by
    unfold State.segmentLosesSignal State.lineLoss
    rw [if_pos hc]
    exact congrArg (fun t : State => t.scanLosesLock i d) (if_pos hs)
  obtain ⟨drops, pulled, only⟩ := drop_drops (d := d) (f := id) hc hk fun _ => ⟨rfl, rfl⟩
  rw [modifyHalf_id] at drops pulled only
  obtain ⟨detect, noSearch⟩ := drop_half s i d
  rw [lost, scanLosesLock_early (.inr detect) noSearch]
  refine ⟨?_, pulledBack_around pulled ⟨fun _ _ => rfl, rfl⟩ (fun _ => rfl) (onlyLane_setLane _ i _),
    only.trans (.setLane _ i _)⟩
  rw [State.lane_setLane_self]
  exact drops.took (scanLosesLock_scanOnly _ _)

/-- The same loss fails the segment of a lane in TRAIN or READY (R37, R44, R108). -/
theorem segmentLosesSignal_train (hl : (s.lane i).state = .train ∨ (s.lane i).state = .ready)
    (hs : (s.half i d).seg.state.watchesLine = true) :
    (s.lane i).failsTo ((s.segmentLosesSignal i d).lane i) d .lockLost ∧ onlyLane s (s.segmentLosesSignal i d) i ∧
      LanesOnly s (s.segmentLosesSignal i d) := by
  have hc : (s.lane i).state ≠ .carry := by rcases hl with e | e <;> rw [e] <;> nofun
  have hi : (s.half i d).seg.state ≠ .idle := fun e => by rw [e] at hs; cases hs
  have lost : s.segmentLosesSignal i d = (s.failSegment i d .lockLost).scanLosesLock i d := by
    unfold State.segmentLosesSignal State.lineLoss
    rw [if_neg hc]
    exact congrArg (fun t : State => t.scanLosesLock i d) (if_pos hs)
  obtain ⟨fails, alone, only⟩ := failSegment_fails (f := id) .lockLost hl hi fun _ => ⟨rfl, rfl, rfl⟩
  rw [modifyHalf_id] at fails alone only
  have lane : (s.failSegment i d .lockLost).lane i = (s.lane i).fail d .lockLost := by
    rw [failSegment_eq, if_pos ⟨hl, hi⟩, State.lane_setLane_self]
  obtain ⟨idle, noSearch⟩ := fail_half_idle (s.lane i) d .lockLost
  rw [← lane] at idle noSearch
  rw [lost, scanLosesLock_early (.inl idle) noSearch]
  refine ⟨?_, alone.trans (onlyLane_setLane _ i _), only.trans (.setLane _ i _)⟩
  rw [State.lane_setLane_self]
  exact fails.took (scanLosesLock_scanOnly _ _)

end Segment

/-- Settles O9, by the lane state. -/
theorem signalLossDropsOrFailsTheLane : Obligations.SignalLossDropsOrFailsTheLane := by
  intro r s i d hr hst
  have exec := signalLost_eq hr hst
  have lane := State.lane_setRx s r ⟨false, false⟩ i
  have half := State.half_setRx s r ⟨false, false⟩ i d
  refine ⟨fun k hc hd hk => ?_, fun hl hs => ?_⟩
  · obtain ⟨drops, pulled, only⟩ := segmentLosesSignal_carry (s := s.setRx r ⟨false, false⟩) (d := d)
      ((congrArg Lane.state lane).trans hc) ((State.legOf_setRx s r _ i).trans hk) (by rw [half, hd]; rfl)
    refine ⟨_, exec, (only.rx r).trans (State.rx_setRx s r _), lane ▸ drops, ?_, ?_⟩
    · exact pulledBack_around pulled (setRx_onlyLane s r _ i) (State.legOf_setRx s r _) ⟨fun _ _ => rfl, rfl⟩
    · rw [engineEvent_offLanes, only.offLanes]
  · obtain ⟨fails, alone, only⟩ := segmentLosesSignal_train (s := s.setRx r ⟨false, false⟩) (i := i) (d := d)
      (by rwa [lane]) (by rw [half]; rcases hs with e | e <;> rw [e] <;> rfl)
    refine ⟨_, exec, (only.rx r).trans (State.rx_setRx s r _), lane ▸ fails, ?_, ?_⟩
    · exact (setRx_onlyLane s r _ i).trans alone
    · rw [engineEvent_offLanes, only.offLanes]

/-! ## Loss in IDLE and DETECT (R33, R39, R104, R108) -/

theorem scanLosesLock_free {h : Half} (ctx : Ctx) (hn : h.scan.inFlight = none) : h.scanLosesLock ctx = Out.ok h := by
  unfold Half.scanLosesLock
  rw [hn]

/-- An ACTION scan ends with NO READING, and a search request that waited is discarded outside EXCHANGE (R104, R108). -/
theorem scanLosesLock_action {h : Half} (ctx : Ctx) {sc : Scan} (hn : h.scan.inFlight = some sc) (ho : sc.origin = .action)
    (hs : h.seg.state ≠ .exchange) : h.scanLosesLock ctx = Out.ok { h with scan :=
      ⟨none, false, ⟨some .action, [0, 0, 0, 0, 0, 0], none⟩, satInc counterMax h.scan.count⟩ } := by
  unfold Half.scanLosesLock Half.endScan
  rw [hn]
  dsimp only
  rw [ho]
  exact (congrArg (fun o : Out => (⟨o.half, o.fail, false || o.retrain⟩ : Out))
    (startWaiting_idle ctx (h := h.record (Reading.noReading .action)) hs)).trans rfl

/-- A loss at a segment in IDLE or DETECT is what becomes of its scan (R33, R39). -/
theorem losses_early {s : State} {i : LaneId} {d : Side}
    (hs : (s.half i d).seg.state = .idle ∨ (s.half i d).seg.state = .detect) :
    s.segmentLosesSignal i d = s.scanLosesLock i d ∧ s.segmentLosesLock i d = s.scanLosesLock i d := by
  have quiet : (s.half i d).seg.state.watchesLine = false := by rcases hs with e | e <;> rw [e] <;> rfl
  refine ⟨?_, ?_⟩
  · exact congrArg (fun t : State => t.scanLosesLock i d) (if_neg (by rw [State.half] at quiet; simp [quiet]))
  · have same : ((s.lane i).half d).startRelock = (s.lane i).half d := if_neg (by rw [State.half] at quiet; simp [quiet])
    unfold State.segmentLosesLock
    rw [same, Lane.setHalf_half_self, State.setLane_lane_self]

/-- What becomes of the scan: nothing without one, and an end with NO READING for an ACTION scan. -/
theorem scanLosesLock_early_cases {s : State} {i : LaneId} {d : Side}
    (hs : (s.half i d).seg.state = .idle ∨ (s.half i d).seg.state = .detect) :
    ((s.half i d).scan.inFlight = none → s.scanLosesLock i d = s) ∧
      (∀ sc, (s.half i d).scan.inFlight = some sc → sc.origin = .action →
        s.scanLosesLock i d = s.modifyHalf i d fun h => { h with scan :=
          ⟨none, false, ⟨some .action, [0, 0, 0, 0, 0, 0], none⟩, satInc counterMax h.scan.count⟩ }) := by
  refine ⟨fun hn => ?_, fun sc hn ho => ?_⟩
  · rw [scanLosesLock_early hs (by rw [hn]; nofun), scanLosesLock_free _ hn, Lane.took_ok]
    exact modifyHalf_id
  · have hx : (s.half i d).seg.state ≠ .exchange := by rcases hs with e | e <;> rw [e] <;> nofun
    rw [scanLosesLock_early hs (fun x hx => ?_), scanLosesLock_action _ hn ho hx, Lane.took_ok]
    · rfl
    · rw [hn] at hx
      cases hx
      rw [ho]
      nofun

/-- Settles O10: either loss is what becomes of the scan. -/
theorem lossBeforeExchangeIsNoFailure : Obligations.LossBeforeExchangeIsNoFailure := by
  intro r s i d hst hs lost
  have half : ∀ x, (s.setRx r x).half i d = s.half i d := fun x => State.half_setRx s r x i d
  have result : ∀ (c : Instr) (x : RxLine) (u : State), exec c s = .next (engineEvent s u) →
      u = (s.setRx r x).scanLosesLock i d → lost c x := by
    intro c x u hc hu
    obtain ⟨free, action⟩ := scanLosesLock_early_cases (s := s.setRx r x) (by rwa [half x])
    rw [half x] at free action
    refine ⟨_, hc, fun hn => ?_, fun sc hn ho => ?_⟩
    · rw [engineEvent_quiet, hu, free hn]
    · rw [engineEvent_quiet, hu, action sc hn ho]
  refine ⟨fun hr => ?_, fun hr => ?_⟩
  · exact result _ _ _ (signalLost_eq hr hst) (losses_early (by rwa [half])).1
  · exact result _ _ _ (lockLost_eq hr hst) (losses_early (by rwa [half])).2

/-- Settles O14, by what the receiver finds. -/
theorem discardedFramesOnlyLeaveTheirTrace : Obligations.DiscardedFramesOnlyLeaveTheirTrace := by
  intro r bits s i d hr hst hi
  refine ⟨_, frameReceived_eq bits hr hst hi, fun hx => ?_, fun hx hc => ?_, fun hx hc => ?_, fun hx => ?_⟩ <;>
    rw [engineEvent_quiet, hx]
  · rfl
  · exact congrArg State.quiet (if_neg hc)
  · exact congrArg State.quiet (if_pos hc)
  · rfl

/-! ## The timers of a lane -/

/-- What an event leaves of the last reading and of the scan count, the lane keeps (R103, R107). -/
theorem applyOut_reading {s : State} {i : LaneId} {d : Side} {o : Out} (hl : (s.lane i).segmentLaw = true)
    (hs : o.half.seg.state = (s.half i d).seg.state) :
    ((s.applyOut i d o).half i d).scan.last = o.half.scan.last ∧
      ((s.applyOut i d o).half i d).scan.count = o.half.scan.count := by
  have took : ((s.lane i).took d o).half d = o.half := (Lane.took_half _ d d o).trans (if_pos rfl)
  rcases applyOut_eq s i d o with ⟨r, -, -, -, e⟩ | ⟨r, -, -, e⟩ | ⟨hf, -⟩
  · rw [e]
    change ((State.lane (s.setLane i (((s.lane i).took d o).fail d r)) i).half d).scan.last = _ ∧
      ((State.lane (s.setLane i (((s.lane i).took d o).fail d r)) i).half d).scan.count = _
    rw [State.lane_setLane_self, Lane.fail_half, if_pos rfl, setIdle_last, setIdle_count, took]
    exact ⟨rfl, rfl⟩
  · rw [e]
    change ((State.lane (s.setLane i ((s.lane i).took d o)) i).half d).scan.last = _ ∧
      ((State.lane (s.setLane i ((s.lane i).took d o)) i).half d).scan.count = _
    rw [State.lane_setLane_self, took]
    exact ⟨rfl, rfl⟩
  · rw [applyOut_steady hl hf hs, State.half, State.lane_setLane_self, took]
    exact ⟨rfl, rfl⟩

/-- T_SETTLE_EXPIRY while T_settle runs (R117, R121). -/
theorem tSettleExpiry_eq {s : State} {i : LaneId} {d : Side} (h : (s.half i d).search.tSettle ≠ none) :
    exec (.tSettleExpiry i d) s =
      .next (engineEvent s (s.applyOut i d ((s.half i d).stopSettle.requestSearchScan (s.ctx i d)))) := by
  show execTSettleExpiry i d s = _
  unfold execTSettleExpiry
  split
  · next e => exact absurd e h
  · rfl

theorem requestSearchScan_locked {h : Half} {ctx : Ctx} (hn : h.scan.inFlight = none) (hl : ctx.locked = true) :
    h.requestSearchScan ctx = Out.ok { h with scan := { h.scan with inFlight := some ⟨.search, 1, []⟩ } } := by
  unfold Half.requestSearchScan Half.startScan
  rw [hn, if_pos hl]

theorem requestSearchScan_waits {h : Half} {ctx : Ctx} (hn : h.scan.inFlight ≠ none) :
    h.requestSearchScan ctx = Out.ok { h with scan := { h.scan with waiting := true } } := by
  unfold Half.requestSearchScan
  split
  · rfl
  · next e => exact absurd e hn

/-- Without lock the SEARCH scan ends in the same event with NO READING (R104, R108). -/
theorem requestSearchScan_unlocked {h : Half} {ctx : Ctx} (hn : h.scan.inFlight = none) (hl : ctx.locked = false) :
    (h.requestSearchScan ctx).half.scan = ⟨none, h.scan.waiting, ⟨some .search, [0, 0, 0, 0, 0, 0], none⟩,
      satInc counterMax h.scan.count⟩ := by
  unfold Half.requestSearchScan Half.startScan
  rw [hn, if_neg (by simp [hl])]
  have e := searchReading_searchOnly ctx (h.record (Reading.noReading .search)) none
  unfold SearchOnly at e
  exact (congrArg Half.scan e).trans rfl

/-- The timers whose expiry fails the segment, while they run (R33, R34, R37, R95). -/
theorem failingExpiry_eq (s : State) (i : LaneId) (d : Side) :
    ((s.half i d).seg.tAcquire ≠ none → exec (.tAcquireExpiry i d) s =
      .next (engineEvent s ((s.modifyHalf i d Half.stopAcquire).failSegment i d .acquireTimeout))) ∧
    ((s.half i d).seg.tTune ≠ none → exec (.tTuneExpiry i d) s =
      .next (engineEvent s ((s.modifyHalf i d Half.stopTune).failSegment i d .tuneTimeout))) ∧
    ((s.half i d).req.tReply ≠ none → exec (.tReplyExpiry i d) s =
      .next (engineEvent s ((s.modifyHalf i d Half.stopReply).failSegment i d .replyTimeout))) := by
  simp only [exec]
  unfold execTAcquireExpiry execTTuneExpiry execTReplyExpiry
  refine ⟨fun h => ?_, fun h => ?_, fun h => ?_⟩
  all_goals
    split
    · next e => exact absurd e h
    · rfl

/-- T_RELOCK_EXPIRY while T_relock runs: as a loss of signal (R36, R48). -/
theorem tRelockExpiry_eq {s : State} {i : LaneId} {d : Side} (h : (s.half i d).seg.tRelock ≠ none) :
    exec (.tRelockExpiry i d) s = .next (engineEvent s (if (s.lane i).state = .carry then
      (s.modifyHalf i d Half.stopRelock).drop i
    else (s.modifyHalf i d Half.stopRelock).failSegment i d .lockLost)) := by
  show execTRelockExpiry i d s = _
  unfold execTRelockExpiry State.lineLoss
  rw [modifyHalf_lane, Lane.setHalf_state]
  split
  · next e => exact absurd e h
  · rfl

/-- T_SETTLE_EXPIRY asks for a SEARCH scan (R104, R108, R117, R121). -/
theorem settleExpires {s : State} {i : LaneId} {d : Side} (hl : (s.lane i).segmentLaw = true) :
    let t := s.applyOut i d ((s.half i d).stopSettle.requestSearchScan (s.ctx i d))
    ((s.half i d).scan.inFlight = none → s.locked i d = true → t = s.modifyHalf i d fun h => { h with
      search := { h.search with tSettle := none }, scan := { h.scan with inFlight := some ⟨.search, 1, []⟩ } }) ∧
    ((s.half i d).scan.inFlight = none → s.locked i d = false →
      (t.half i d).scan.last = ⟨some .search, [0, 0, 0, 0, 0, 0], none⟩ ∧
      (t.half i d).scan.count = satInc counterMax (s.half i d).scan.count) ∧
    ((s.half i d).scan.inFlight ≠ none → t = s.modifyHalf i d fun h => { h with
      search := { h.search with tSettle := none }, scan := { h.scan with waiting := true } }) := by
  intro t
  have stored : ∀ h : Half, (s.half i d).stopSettle.requestSearchScan (s.ctx i d) = Out.ok h →
      h.seg.state = (s.half i d).seg.state → t = s.setLane i ((s.lane i).setHalf d h) := by
    intro h e hs
    show s.applyOut i d _ = _
    rw [e, applyOut_steady hl rfl hs, Lane.took_ok]
  refine ⟨fun hn hk => stored _ (requestSearchScan_locked hn hk) rfl, fun hn hk => ?_,
    fun hn => stored _ (requestSearchScan_waits hn) rfl⟩
  have reading := requestSearchScan_unlocked (h := (s.half i d).stopSettle) (ctx := s.ctx i d) hn hk
  obtain ⟨last, count⟩ := applyOut_reading hl (o := (s.half i d).stopSettle.requestSearchScan (s.ctx i d))
    (requestSearchScan_scanOnly _ _).state
  rw [reading] at last count
  exact ⟨last, count⟩

/-- T_QUIET_EXPIRY in WAIT while the timer runs (R45). -/
theorem tQuietExpiry_eq {s : State} {i : LaneId} (hw : (s.lane i).state = .wait) (ht : (s.lane i).tQuiet ≠ none) :
    exec (.tQuietExpiry i) s = .next (engineEvent s (s.moveLane i fun l => l.trainFresh (s.legConfig i))) := by
  show execTQuietExpiry i s = _
  unfold execTQuietExpiry
  exact if_pos ⟨hw, Option.isSome_iff_ne_none.mpr ht⟩

/-- Settles O21, timer by timer. -/
theorem laneTimersExpire : Obligations.LaneTimersExpire := by
  intro s i d
  have fails : ∀ {c : Instr} {f : Half → Half} {r : FailReason}, ((s.lane i).state = .train ∨ (s.lane i).state = .ready) →
      (s.half i d).seg.state ≠ .idle → exec c s = .next (engineEvent s ((s.modifyHalf i d f).failSegment i d r)) →
      (∀ h, (f h).seg.state = h.seg.state ∧ (f h).tx = h.tx ∧ (f h).seg.own = h.seg.own) →
      ∃ t, exec c s = .next t ∧ (s.lane i).failsTo (t.lane i) d r ∧ onlyLane s t i ∧ t.offLanes = s.offLanes := by
    intro c f r hl hi hc hf
    obtain ⟨failed, alone, only⟩ := failSegment_fails r hl hi hf
    exact ⟨_, hc, failed, alone, (engineEvent_offLanes s _).trans only.offLanes⟩
  obtain ⟨acquire, tune, reply⟩ := failingExpiry_eq s i d
  refine ⟨fun hl hi => ⟨fun ht => fails hl hi (acquire ht) fun _ => ⟨rfl, rfl, rfl⟩,
    fun ht => fails hl hi (tune ht) fun _ => ⟨rfl, rfl, rfl⟩, fun ht => fails hl hi (reply ht) fun _ => ⟨rfl, rfl, rfl⟩,
    fun ht => fails (f := Half.stopRelock) hl hi ?_ fun _ => ⟨rfl, rfl, rfl⟩⟩, fun k hc hk ht => ?_, fun ht hlaw => ?_,
    fun hw ht => ?_⟩
  · rw [tRelockExpiry_eq ht, if_neg (by rcases hl with e | e <;> rw [e] <;> nofun)]
  · obtain ⟨drops, pulled, only⟩ := drop_drops (d := d) (f := Half.stopRelock) hc hk fun _ => ⟨rfl, rfl⟩
    refine ⟨engineEvent s ((s.modifyHalf i d Half.stopRelock).drop i), ?_, drops, pulled,
      (engineEvent_offLanes s _).trans only.offLanes⟩
    rw [tRelockExpiry_eq ht, if_pos hc]
  · obtain ⟨starts, reads, waits⟩ := settleExpires (d := d) hlaw
    refine ⟨_, tSettleExpiry_eq ht, fun hn hk => ?_, reads, fun hn => ?_⟩
    · rw [engineEvent_quiet, starts hn hk]
    · rw [engineEvent_quiet, waits hn]
  · have moved := moveLane_eq s i fun l => l.trainFresh (s.legConfig i)
    exact ⟨_, tQuietExpiry_eq hw ht, moved.2.1, (congrArg Lane.fc moved.2.1).trans rfl,
      moveLane_onlyLane _ (by rw [hw]; nofun), (engineEvent_offLanes s _).trans moved.1.offLanes⟩

/-- WATCH_RETRAIN_REQUEST where one waits in CARRY, and where the lane has left CARRY (R49, R139). -/
theorem watchRetrainRequest_eq {s : State} {i : LaneId} (h : (s.lane i).retrainRequested = true) :
    exec (.watchRetrainRequest i) s = if (s.lane i).state = .carry then
      .next (engineEvent s (s.moveLane i fun l => l.watchRetrain (s.legConfig i)))
    else .next (s.setLane i { s.lane i with retrainRequested := false }) := by
  show execWatchRetrainRequest i s = _
  unfold execWatchRetrainRequest
  simp only [h, true_and]

/-- Settles O25, by whether the lane is in CARRY. -/
theorem watchRetrainIsTakenInCarry : Obligations.WatchRetrainIsTakenInCarry := by
  intro s i hr
  have exec := watchRetrainRequest_eq hr
  refine ⟨fun k hc hk => ?_, fun hc => exec.trans (if_neg hc)⟩
  have lane : (s.moveLane i fun l => l.watchRetrain (s.legConfig i)).lane i =
      (s.lane i).watchRetrain (s.legConfig i) := (moveLane_eq s i _).2.1
  refine ⟨_, exec.trans (if_pos hc), ?_⟩
  rw [engineEvent_lane, lane]
  refine ⟨rfl, rfl, rfl, rfl, moveLane_pulledBack hc nofun hk, ?_⟩
  rw [engineEvent_offLanes]
  exact (moveLane_eq s i _).1.offLanes

end Sys2Proof.Machine
end

section
/-! SUPPORT. Good frames: a segment that begins an exchange (R33, R34, R38, R86, R94, R115), and the one that completes the last
lane of its leg (R35, R43, R55, R98, R134). -/

namespace Sys2Proof.Machine

/-! ## Serving a request (R88, R89) -/

/-- What a request field leaves of transmitter and Responder of a side that has no last tag. -/
theorem takeRequest_fresh {h : Half} (f : Frame) (hr : h.resp = ⟨none, .none⟩) :
    (f.request = .none → (h.takeRequest f).tx = h.tx ∧ (h.takeRequest f).resp = ⟨none, .none⟩) ∧
    (f.request = .bad → (h.takeRequest f).tx = h.tx ∧ (h.takeRequest f).resp = ⟨some f.requestTag, .badRequest⟩) ∧
    (∀ q, f.request = .request q → (h.takeRequest f).tx = (h.tx.serve q).1 ∧
      (h.takeRequest f).resp = ⟨some f.requestTag, (h.tx.serve q).2⟩) := by
  have new : h.resp.lastTag ≠ some f.requestTag := by rw [hr]; nofun
  unfold Half.takeRequest
  refine ⟨fun e => ?_, fun e => ?_, fun q e => ?_⟩
  · rw [e]
    exact ⟨rfl, hr⟩
  · rw [e]
    dsimp only
    rw [if_neg new]
    exact ⟨rfl, rfl⟩
  · rw [e]
    dsimp only
    rw [if_neg new]
    exact ⟨rfl, rfl⟩

/-- A request touches transmitter and Responder alone (R88). -/
theorem takeRequest_eq (h : Half) (f : Frame) :
    h.takeRequest f = { h with tx := (h.takeRequest f).tx, resp := (h.takeRequest f).resp } := by
  unfold Half.takeRequest Half.serveNew
  split
  · rfl
  · split <;> rfl
  · split <;> rfl

/-- A request is served by what transmitter and Responder hold, whatever the rest of the side. -/
theorem takeRequest_congr {h x : Half} (f : Frame) (ht : x.tx = h.tx) (hr : x.resp = h.resp) :
    (x.takeRequest f).tx = (h.takeRequest f).tx ∧ (x.takeRequest f).resp = (h.takeRequest f).resp := by
  unfold Half.takeRequest Half.serveNew
  rw [ht, hr]
  split
  · exact ⟨ht, hr⟩
  · split
    · exact ⟨ht, hr⟩
    · exact ⟨rfl, rfl⟩
  · split
    · exact ⟨ht, hr⟩
    · exact ⟨rfl, rfl⟩

/-! ## A search that has begun and waits for the synchronised flag -/

/-- A side right after EXCHANGE entry or a partner restart: its search has handed over its PRESET, which waits for the
synchronised flag (R34, R86, R93, R94, R115). -/
structure Half.begun (h : Half) (p : Request) : Prop where
  state : h.seg.state = .exchange
  synchronised : h.seg.synchronised = false
  ownReady : h.seg.ownReady = false
  partnerReady : h.seg.partnerReady = false
  outstanding : h.req.outstanding = none
  handed : h.req.handed = some p

/-- The Requester of such a side after a frame: a frame without a reply issues the request (R94). -/
def Half.begunReq (h : Half) (p : Request) (f : Frame) : Requester :=
  if f.reply?.isNone then h.req.issue p else h.req

theorem takeSync_begun {h : Half} {p : Request} (f : Frame) (hb : h.begun p) : h.takeSync f =
    { h with seg := { h.seg with synchronised := f.reply?.isNone }, req := h.begunReq p f } := by
  obtain ⟨state, sync, -, -, -, handed⟩ := hb
  unfold Half.takeSync Half.begunReq
  by_cases hr : f.reply?.isNone = true
  · rw [if_pos ⟨state, hr, sync⟩, if_pos hr, hr]
    unfold Half.synchronise
    dsimp only
    rw [handed]
  · rw [if_neg fun c => hr c.2.1, if_neg hr]
    have : f.reply?.isNone = h.seg.synchronised := by rw [sync, Bool.eq_false_iff.mpr hr]
    rw [this]

/-- The reply of the frame that begins an exchange answers nothing: what is outstanding by then is only what the frame without
a reply has let go (R92, R94). -/
theorem begun_noAnswer {h : Half} {p : Request} (f : Frame) (hb : h.begun p) : (h.takeSync f).replyAnswers f = false := by
  rw [takeSync_begun f hb]
  unfold Half.replyAnswers Half.begunReq
  by_cases hr : f.reply?.isNone = true
  · have none : f.reply? = none := Option.isNone_iff_eq_none.mp hr
    rw [if_pos hr, none]
    rfl
  · rw [if_neg hr]
    dsimp only
    rw [hb.outstanding]

/-- Readiness is taken by a synchronised segment in EXCHANGE (R97). -/
theorem takeReady_exchange {h : Half} (f : Frame) (hs : h.seg.state = .exchange) : h.takeReady f =
    { h with seg := { h.seg with partnerReady := h.seg.partnerReady || (f.ready && h.seg.synchronised) } } := by
  unfold Half.takeReady
  rw [hs]
  cases f.ready <;> cases e : h.seg.synchronised <;> simp

/-- A segment that is not ready itself is not DONE yet (R98). -/
theorem tryDone_unready {h : Half} (ho : h.seg.ownReady = false) : h.tryDone = h := by
  unfold Half.tryDone
  rw [if_neg fun c => by rw [ho] at c; exact nomatch c.2.1]

/-- A side whose search has begun, after the frame that began it (R84, R88, R94, R97, R100). -/
def Half.begunAfter (x : Half) (p : Request) (f : Frame) : Half :=
  { x with
    seg := { x.seg with
      synchronised := f.reply?.isNone, partnerReady := f.ready && f.reply?.isNone, echo := f.echo }
    tx := (x.takeRequest f).tx
    resp := (x.takeRequest f).resp
    req := x.begunReq p f }

/-- A frame taken by a side whose session part leaves it begun. -/
theorem takeFrame_begun {ctx : Ctx} {h x : Half} {p : Request} (f : Frame) (hx : h.takeSession ctx f = x)
    (hb : x.begun p) : h.takeFrame ctx f = Out.ok (x.begunAfter p f) := by
  have reply : (x.takeSync f).takeReply ctx f = Out.ok (x.takeSync f) := by
    unfold Half.takeReply
    rw [if_neg fun c => by rw [begun_noAnswer f hb] at c; exact nomatch c.2]
  obtain ⟨tx, resp⟩ := takeRequest_congr (h := x) (x := x.takeSync f) f (by rw [takeSync_begun f hb])
    (by rw [takeSync_begun f hb])
  have served : (x.takeSync f).takeRequest f = { x with
      seg := { x.seg with synchronised := f.reply?.isNone }
      tx := (x.takeRequest f).tx
      resp := (x.takeRequest f).resp
      req := x.begunReq p f } := by
    rw [takeRequest_eq, tx, resp, takeSync_begun f hb]
  have taken : (((x.takeSync f).takeRequest f).takeReady f).takeEcho f = x.begunAfter p f := by
    rw [served, takeReady_exchange f]
    · dsimp only [Half.takeEcho]
      rw [hb.partnerReady, Bool.false_or]
      rfl
    · exact hb.state
  unfold Half.takeFrame
  rw [hx, reply]
  dsimp only [Out.ok]
  rw [taken, tryDone_unready]
  exact hb.ownReady

/-- A good frame at a segment of a lane that is not in CARRY (R84). -/
theorem goodFrame_eq {s : State} {i : LaneId} {d : Side} (f : Frame) (hc : (s.lane i).state ≠ .carry) :
    s.takeReception i d (.good f) = s.applyOut i d ((s.half i d).takeFrame (s.ctx i d) f) := if_neg hc

/-- EXCHANGE entry begins a search (R34, R115). -/
theorem enterExchange_begun {h : Half} (ctx : Ctx) (n : Fin 16) (hsync : h.seg.synchronised = false)
    (hown : h.seg.ownReady = false) (hready : h.seg.partnerReady = false) (hreq : h.req.outstanding = none) :
    h.enterExchange ctx n = { h with
        seg := { h.seg with state := .exchange, partner := some n, tAcquire := none, tTune := some msTune }
        req := { h.req with handed := some (.preset ctx.partnerPreset) }
        search := { Search.reset with phase := .opening } } ∧
      (h.enterExchange ctx n).begun (.preset ctx.partnerPreset) := by
  have e : h.enterExchange ctx n = { h with
      seg := { h.seg with state := .exchange, partner := some n, tAcquire := none, tTune := some msTune }
      req := { h.req with handed := some (.preset ctx.partnerPreset) }
      search := { Search.reset with phase := .opening } } := by
    unfold Half.enterExchange Half.startSearch Half.hand
    dsimp only
    rw [hsync]
    rfl
  exact ⟨e, e ▸ ⟨rfl, hsync, hown, hready, hreq, rfl⟩⟩

/-- A partner restart begins one again (R38, R86, R115). -/
theorem restart_begun {h : Half} (ctx : Ctx) (n : Fin 16) (hreq : h.req.outstanding = none) :
    h.restart ctx n = { h with
        seg := { h.seg with
          state := .exchange, partner := some n, marginal := false, tTune := some msTune, synchronised := false,
          ownReady := false, partnerReady := false }
        resp := ⟨none, .none⟩
        req := { h.req with nextTag := 0, handed := some (.preset ctx.partnerPreset) }
        search := { Search.reset with phase := .opening } } ∧
      (h.restart ctx n).begun (.preset ctx.partnerPreset) :=
  ⟨rfl, rfl, rfl, rfl, rfl, hreq, rfl⟩

/-- A side in EXCHANGE of a lane in TRAIN or READY is stored, and the lane is in TRAIN (R43, R47). -/
theorem applyOut_exchange {s : State} {i : LaneId} {d : Side} {x : Half} (hx : x.seg.state = .exchange)
    (hl : (s.lane i).state = .train ∨ (s.lane i).state = .ready) :
    s.applyOut i d (Out.ok x) = s.setLane i { (s.lane i).setHalf d x with state := .train } := by
  have due : ∀ l : Lane, l.half d = x → ¬ l.readyDue := fun l e => not_readyDue (d := d) (by rw [e, hx]; nofun)
  have half : ((s.lane i).took d (Out.ok x)).half d = x := (Lane.took_half _ d d _).trans (if_pos rfl)
  have after : ((s.lane i).took d (Out.ok x)).afterRestart d = { (s.lane i).setHalf d x with state := .train } := by
    rw [Lane.took_ok] at half ⊢
    unfold Lane.afterRestart
    rcases hl with ht | hr
    · rw [if_neg fun c => by rw [Lane.setHalf_state, ht] at c; exact nomatch c.1]
      rw [← ht, ← Lane.setHalf_state (s.lane i) d x]
    · exact if_pos ⟨(Lane.setHalf_state _ _ _).trans hr, half.symm ▸ hx⟩
  rcases applyOut_eq s i d (Out.ok x) with ⟨r, e, -⟩ | ⟨r, e, -⟩ | ⟨-, e⟩
  · cases e
  · cases e
  · change _ = (s.setLane i (((s.lane i).took d (Out.ok x)).afterRestart d)).readyCheck i at e
    rw [after] at e
    rw [e]
    rcases readyCheck_eq (s.setLane i { (s.lane i).setHalf d x with state := .train }) i with ⟨e', -⟩ | ⟨h1, h2, h3, -⟩
    · exact e'
    · rw [State.lane_setLane_self] at h1 h2 h3
      exact absurd ⟨h1, h2, h3⟩ (due _ (by cases d <;> rfl))

/-- What a lane shows after a side in EXCHANGE has been stored in it. -/
theorem storedExchange {s : State} {i : LaneId} {d : Side} (x : Half) :
    let t := s.setLane i { (s.lane i).setHalf d x with state := .train }
    (t.lane i).state = .train ∧ t.half i d = x ∧ t.half i (Side.opposite d) = s.half i (Side.opposite d) ∧
      (t.lane i).fc = (s.lane i).fc ∧ (t.lane i).trainings = (s.lane i).trainings ∧
      (t.lane i).failures = (s.lane i).failures ∧ (t.lane i).drops = (s.lane i).drops ∧
      (t.lane i).retrains = (s.lane i).retrains := by
  dsimp only [State.half]
  rw [State.lane_setLane_self]
  cases d <;> exact ⟨rfl, rfl, rfl, rfl, rfl, rfl, rfl, rfl⟩

/-- What the side shows that a frame has brought from DETECT into EXCHANGE (R33, R34, R94, R97). -/
theorem begunAfter_req (x : Half) (p : Request) (f : Frame) :
    (f.reply? = none → (x.begunAfter p f).req = x.req.issue p) ∧ (f.reply? ≠ none → (x.begunAfter p f).req = x.req) :=
  ⟨fun e => if_pos (Option.isNone_iff_eq_none.mpr e), fun e => if_neg fun c => e (Option.isNone_iff_eq_none.mp c)⟩

/-- Settles O15: the frame begins the exchange and is taken by the side it has begun. -/
theorem goodFrameEndsDetect : Obligations.GoodFrameEndsDetect := by
  intro r bits s i d f hr hst hl hd hsync hown hready hreq hresp hf
  obtain ⟨entered, begun⟩ := enterExchange_begun (s.ctx i d) f.sessionNumber hsync hown hready (by rw [hreq]; rfl)
  have session : (s.half i d).takeSession (s.ctx i d) f = (s.half i d).enterExchange (s.ctx i d) f.sessionNumber := by
    unfold Half.takeSession
    rw [hd]
  have taken := takeFrame_begun f session begun
  generalize (s.half i d).enterExchange (s.ctx i d) f.sessionNumber = x at entered begun taken
  have result : s.takeReception i d (receive (s.rxPolarity r) bits) =
      s.setLane i { (s.lane i).setHalf d (x.begunAfter (.preset (s.ctx i d).partnerPreset) f) with state := .train } := by
    rw [hf, goodFrame_eq f (by rw [hl]; nofun), taken]
    exact applyOut_exchange begun.state (.inl hl)
  obtain ⟨train, half, opposite, -⟩ := storedExchange (s := s) (i := i) (d := d)
    (x.begunAfter (.preset (s.ctx i d).partnerPreset) f)
  have exec := frameReceived_eq bits hr hst (by rw [hd]; nofun)
  rw [result] at exec
  refine ⟨_, exec, onlyLane_setLane s i _, engineEvent_offLanes _ _, train, opposite, ?_⟩
  rw [show ∀ u, (engineEvent s u).half i d = u.half i d from fun _ => rfl, half]
  obtain ⟨silent, bad, asked⟩ := takeRequest_fresh (h := x) f (by rw [entered]; exact hresp)
  obtain ⟨issued, waits⟩ := begunAfter_req x (.preset (s.ctx i d).partnerPreset) f
  have tx : x.tx = (s.half i d).tx := by rw [entered]
  dsimp only
  rw [← tx]
  refine ⟨begun.state, ?_, ?_, ?_, ?_, rfl, rfl, rfl, ?_, fun e => ?_, fun e => ?_, silent, bad, asked⟩
  · rw [entered]; rfl
  · rw [entered]; rfl
  · rw [entered]; rfl
  · rw [entered]; rfl
  · rw [entered]; rfl
  · rw [issued e, entered, hreq]
    exact ⟨rfl, rfl, rfl⟩
  · rw [waits e, entered, hreq]
    exact ⟨rfl, rfl, rfl⟩

/-- Settles O18: in CARRY the frame drops the lane, and otherwise it begins the exchange again. -/
theorem partnerRestartIsTaken : Obligations.PartnerRestartIsTaken := by
  intro r bits s i d f hr hst hd hp hreq hf
  have exec := frameReceived_eq bits hr hst (by rw [hd]; nofun)
  rw [hf] at exec
  obtain ⟨restarted, begun⟩ := restart_begun (s.ctx i d) f.sessionNumber hreq
  have session : (s.half i d).takeSession (s.ctx i d) f = (s.half i d).restart (s.ctx i d) f.sessionNumber := by
    unfold Half.takeSession
    rw [hd]
    exact if_neg hp
  have taken := takeFrame_begun f session begun
  generalize (s.half i d).restart (s.ctx i d) f.sessionNumber = x at restarted begun taken
  refine ⟨_, exec, ?_, fun k hc hk => ?_, fun hl => ?_⟩
  · rw [engineEvent_offLanes]
    show (s.goodFrame i d f).offLanes = _
    unfold State.goodFrame
    dsimp only
    split
    · split
      · rfl
      · exact (drop_lanesOnly s i).offLanes
    · exact (applyOut_lanesOnly s i d _).offLanes
  · have dropped : s.takeReception i d (.good f) = s.drop i := (if_pos hc).trans (if_neg hp)
    obtain ⟨drops, pulled, -⟩ := drop_drops (d := d) (f := id) hc hk fun _ => ⟨rfl, rfl⟩
    rw [modifyHalf_id] at drops pulled
    rw [dropped]
    exact ⟨drops, pulled⟩
  · have result : s.takeReception i d (.good f) =
        s.setLane i { (s.lane i).setHalf d (x.begunAfter (.preset (s.ctx i d).partnerPreset) f) with state := .train } := by
      rw [goodFrame_eq f (by rcases hl with e | e <;> rw [e] <;> nofun), taken]
      exact applyOut_exchange begun.state hl
    obtain ⟨train, half, opposite, fc, trainings, failures, drops, retrains⟩ := storedExchange (s := s) (i := i) (d := d)
      (x.begunAfter (.preset (s.ctx i d).partnerPreset) f)
    rw [result, show ∀ u, (engineEvent s u).half i d = u.half i d from fun _ => rfl, half]
    refine ⟨train, onlyLane_setLane s i _, fc, trainings, failures, drops, retrains, ?_, ?_, ?_, ?_, opposite,
      begun.state, ?_, ?_, ?_, begun.ownReady, ?_, ?_, fun e => ?_⟩
    case refine_10 =>
      obtain ⟨silent, -⟩ := takeRequest_fresh (h := x) f (by rw [restarted])
      have tx : x.tx = (s.half i d).tx := by rw [restarted]
      exact tx ▸ silent e
    all_goals
      rw [restarted]
      rfl

/-! ## The last segment of a leg is DONE (R35, R43, R55, R98, R134) -/

/-- A side that is ready, after the frame by which its partner is ready too (R35, R98, R126). -/
def Half.completedBy (h : Half) (f : Frame) : Half :=
  { h with
    seg := { h.seg with
      state := .done, partnerReady := true, echo := f.echo, tTune := none, reason := .none,
      finalFom := h.search.reference }
    tx := (h.takeRequest f).tx
    resp := (h.takeRequest f).resp }

theorem takeFrame_completes {ctx : Ctx} {h : Half} (f : Frame) (hs : h.seg.state = .exchange)
    (hown : h.seg.ownReady = true) (hsync : h.seg.synchronised = true) (hreq : h.req.outstanding = none)
    (hp : h.seg.partner = some f.sessionNumber) (hf : f.ready = true) :
    h.takeFrame ctx f = Out.ok (h.completedBy f) := by
  have session : h.takeSession ctx f = h := by
    unfold Half.takeSession
    rw [hs]
    exact if_pos hp
  have sync : h.takeSync f = h := if_neg fun c => by rw [hsync] at c; exact nomatch c.2.2
  have reply : h.takeReply ctx f = Out.ok h := by
    unfold Half.takeReply Half.replyAnswers
    rw [hreq]
    exact if_neg fun c => nomatch c.2
  have ready : (h.takeRequest f).takeReady f =
      { h.takeRequest f with seg := { h.seg with partnerReady := true } } := by
    have seg := takeRequest_seg h f
    rw [takeReady_exchange f (by rw [seg, hs]), seg, hf, hsync]
    simp
  have done : (((h.takeRequest f).takeReady f).takeEcho f).tryDone = h.completedBy f := by
    rw [ready, takeRequest_eq]
    exact if_pos ⟨hs, hown, rfl⟩
  unfold Half.takeFrame
  rw [session, sync, reply]
  dsimp only [Out.ok]
  rw [done]

/-- The last lane of a leg to be ready brings the leg into CARRY (R43, R55). -/
theorem applyOut_carries {s : State} {i : LaneId} {d : Side} {k : LegId} {x : Half} (hk : s.legOf i = some k)
    (hl : (s.lane i).state = .train) (hx : x.seg.state = .done)
    (ho : (s.half i (Side.opposite d)).seg.state = .done)
    (peers : ∀ j, j ≠ i → s.legOf j = some k → (s.lane j).state = .ready) :
    (s.applyOut i d (Out.ok x)).legState = s.legState.set k .live ∧
      (s.applyOut i d (Out.ok x)).lane i = { (s.lane i).setHalf d x with state := .ready }.enterCarry ∧
      (∀ j, j ≠ i → s.legOf j = some k → (s.applyOut i d (Out.ok x)).lane j = (s.lane j).enterCarry) ∧
      (∀ j, s.legOf j ≠ some k → (s.applyOut i d (Out.ok x)).lane j = s.lane j) := by
  have stays : ((s.lane i).setHalf d x).afterRestart d = (s.lane i).setHalf d x :=
    if_neg fun c => by rw [Lane.setHalf_state, hl] at c; exact nomatch c.1
  have due : ((s.lane i).setHalf d x).readyDue := by
    refine ⟨(Lane.setHalf_state _ _ _).trans hl, ?_⟩
    cases d
    · exact ⟨hx, ho⟩
    · exact ⟨ho, hx⟩
  have checked : s.applyOut i d (Out.ok x) = (s.setLane i ((s.lane i).setHalf d x)).readyCheck i := by
    rcases applyOut_eq s i d (Out.ok x) with ⟨r, e, -⟩ | ⟨r, e, -⟩ | ⟨-, e⟩
    · cases e
    · cases e
    · change _ = (s.setLane i (((s.lane i).took d (Out.ok x)).afterRestart d)).readyCheck i at e
      rwa [Lane.took_ok, stays] at e
  have lane := State.lane_setLane_self s i ((s.lane i).setHalf d x)
  have other : ∀ j, j ≠ i → (s.setLane i ((s.lane i).setHalf d x)).lane j = s.lane j := fun j hj =>
    State.lane_setLane_ne s _ hj
  rw [checked]
  rcases readyCheck_eq (s.setLane i ((s.lane i).setHalf d x)) i with
    ⟨-, hn⟩ | ⟨-, -, -, ⟨-, late⟩ | ⟨m, hm, -, -, live, self, peer, rest⟩⟩
  · rw [lane] at hn
    exact absurd due hn
  · obtain ⟨j, hj, hjk, hne⟩ := late k hk
    rw [other j hj] at hne
    exact absurd (peers j hj hjk) hne
  · obtain rfl : k = m := Option.some.inj (hk.symm.trans hm)
    refine ⟨live, by rw [self, lane], fun j hj hjk => ?_, fun j hjk => ?_⟩
    · rw [peer j hj hjk, other j hj]
    · rw [rest j hjk, other j fun e => hjk (e ▸ hk)]

/-- Settles O19: the frame completes the segment, which is the last of its leg. -/
theorem lastReadyFrameBringsTheLegIntoCarry : Obligations.LastReadyFrameBringsTheLegIntoCarry := by
  intro r bits s i d k f hr hst hk hl hs ho hown hsync hreq hp hready peers hf
  have completed := takeFrame_completes (ctx := s.ctx i d) f hs hown hsync hreq hp hready
  have exec := frameReceived_eq bits hr hst (by rw [hs]; nofun)
  rw [hf, goodFrame_eq f (by rw [hl]; nofun), completed] at exec
  obtain ⟨live, self, peer, rest⟩ := applyOut_carries (d := d) (x := (s.half i d).completedBy f) hk hl rfl ho peers
  have frame := (applyOut_lanesOnly s i d (Out.ok ((s.half i d).completedBy f))).offLanes
  generalize s.applyOut i d (Out.ok ((s.half i d).completedBy f)) = u at exec live self peer rest frame
  refine ⟨_, exec, (engineEvent_offLanes _ _).trans frame, live, ?_, ?_, ?_, ?_, ?_, ?_, ?_, ?_, peer, rest⟩
  all_goals
    simp only [State.half, engineEvent_lane, self]
    cases d <;> rfl

end Sys2Proof.Machine
end

section
/-! SUPPORT. The reset lines of the legs (R51, R53, R56, R173, R185) and SOFT_RESET (R59, R76, R102, R129, R130, R157). -/

namespace Sys2Proof.Machine

/-! ## LEG_RESET_ASSERTED and LEG_RESET_RELEASED -/

section LegLine
variable (s : State) (k : LegId)

theorem lineAsserted_lane (i : LaneId) : (s.lineAsserted k).lane i =
    if s.legOf i = some k then (s.lane i).assertLine else s.lane i :=
  State.lane_mapLeg { s with legLines := s.legLines.set k true } k (fun _ l => l.assertLine) i

theorem lineAsserted_legState (m : LegId) : (s.lineAsserted k).legState.get m =
    if m = k ∧ s.legState.get m = .live then .forming else s.legState.get m := by
  show (s.legState.modify k _).get m = _
  by_cases h : m = k
  · rw [h, Tab.get_modify_self]
    simp
  · rw [Tab.get_modify_ne _ _ h, if_neg fun c => h c.1]

theorem lineReleased_lane (i : LaneId) : (s.lineReleased k).lane i =
    if s.legOf i = some k then (s.lane i).releaseLine (s.legConfig i) else s.lane i :=
  State.lane_mapLeg { s with legLines := s.legLines.set k false } k (fun i l => l.releaseLine (s.legConfig i)) i

end LegLine

theorem legConfig_some {s : State} {i : LaneId} {k : LegId} (h : s.legOf i = some k) : s.legConfig i = s.legs.get k := by
  unfold State.legConfig
  rw [h]

/-- LINE joins the hold set of a lane in DOWN (R51). -/
theorem Lane.assertLine_down {l : Lane} (h : l.state = .down) :
    l.assertLine = { l with hold := { l.hold with line := true } } := by
  unfold Lane.assertLine Lane.addHold
  rw [if_neg (by rw [h]; nofun), if_pos h]

/-- LINE sends any other lane that is not OFF to DOWN (R51). -/
theorem Lane.assertLine_enters {l : Lane} (ho : l.state ≠ .off) (hd : l.state ≠ .down) :
    l.assertLine = { l.enterDown with hold := { l.hold with line := true } } := by
  unfold Lane.assertLine Lane.addHold
  rw [if_neg ho, if_neg hd]

theorem Lane.releaseLine_eq (cfg : LegConfig) (l : Lane) :
    l.releaseLine cfg = Lane.goOn cfg { l with hold := ⟨l.hold.switch, false, false⟩ } := rfl

/-- A lane in DOWN that nothing else holds trains fresh when LINE and LEG leave it (R53). -/
theorem Lane.releaseLine_free (cfg : LegConfig) {l : Lane} (hd : l.state = .down) (hs : l.hold.switch = false) :
    l.releaseLine cfg = Lane.trainFresh cfg { l with hold := ⟨false, false, false⟩ } := by
  rw [Lane.releaseLine_eq, hs]
  exact Lane.goOn_free cfg hd rfl

/-- Any other lane only loses them (R53). -/
theorem Lane.releaseLine_stays (cfg : LegConfig) {l : Lane} (h : l.state ≠ .down ∨ l.hold.switch = true) :
    l.releaseLine cfg = { l with hold := ⟨l.hold.switch, false, false⟩ } := by
  rw [Lane.releaseLine_eq]
  rcases h with hd | hs
  · exact if_neg fun c => hd c.1
  · rw [hs]
    exact Lane.goOn_held cfg nofun

/-- LEG_RESET_RELEASED takes the operations still out first (R144, R148). -/
theorem legResetReleased_eq {s : State} {k : LegId} (h : s.legLines.get k = true) :
    exec (.legResetReleased k) s = .next ((engineEvent (settleHanded s (legPort k))
      ((settleHanded s (legPort k)).lineReleased k)).setPort (legPort k) Port.reset) := if_pos h

/-- Settles O7, by the assertion's and the release's equation for every lane, and by what settling takes first. -/
theorem legResetLineHoldsAndFreesTheLeg : Obligations.LegResetLineHoldsAndFreesTheLeg := by
  intro k s
  refine ⟨⟨engineEvent s (s.lineAsserted k), rfl, engineEvent_offLanes _ _, fun i hi => ?_, fun i hk hd => ?_,
    fun i hk ho hd => ?_, lineAsserted_legState s k⟩, fun hline hout => ?_, fun op rest hline hout => ?_⟩
  · rw [engineEvent_lane, lineAsserted_lane]
    split
    · next hk => exact if_pos (hi.resolve_left fun c => c hk)
    · rfl
  · rw [engineEvent_lane, lineAsserted_lane, if_pos hk, Lane.assertLine_down hd]
  · rw [engineEvent_lane, lineAsserted_lane, if_pos hk, Lane.assertLine_enters ho hd]
  · have exec := legResetReleased_eq hline
    rw [settleHanded_nil hout] at exec
    refine ⟨_, exec, rfl, State.port_setPort_self _ _ _, rfl, fun p hp => ?_, fun i hk => ?_, fun i hk hd hs => ?_,
      fun i hk h => ?_⟩
    · rw [State.port_setPort_ne _ _ hp, engineEvent, (track_eq _ _ _).2 p]
      rfl
    · rw [State.lane_setPort, engineEvent_lane, lineReleased_lane, if_neg hk]
    · rw [State.lane_setPort, engineEvent_lane, lineReleased_lane, if_pos hk, Lane.releaseLine_free _ hd hs,
        legConfig_some hk]
    · rw [State.lane_setPort, engineEvent_lane, lineReleased_lane, if_pos hk, Lane.releaseLine_stays _ h]
  · have handed : s.handedAt (legPort k) op.bit = some op := by
      unfold State.handedAt
      rw [hout]
      exact List.find?_cons_of_pos (by simp)
    have lines : (engineEvent s (s.takeHanded (legPort k) op)).legLines.get k = true := by
      have only : (s.takeHanded (legPort k) op).legLines = s.legLines := by
        rw [takeHanded_actionOnly s (legPort k) op]
      rw [← hline, ← only]
      rfl
    refine ⟨engineEvent s (s.takeHanded (legPort k) op), ?_, ?_⟩
    · show execActionLaneOperation (legPort k) op.bit s = _
      unfold execActionLaneOperation
      rw [handed]
    · rw [legResetReleased_eq hline, legResetReleased_eq lines, settleHanded_cons hout]

/-! ## SOFT_RESET of a lane (R59, R76, R102, R129, R130) -/

/-- A side as a soft reset leaves it: its own session number and the start preset are all it keeps. -/
def Half.restarted (own : Fin 16) (p : Fin 4) : Half :=
  { seg := { SegControl.reset with own := own }, tx := TxUnit.load p, resp := ⟨none, .none⟩, req := .reset,
    search := .reset, scan := .reset, watch := .reset, frameErrors := 0, watchAlarms := 0 }

theorem Half.softReset_eq (h : Half) (p : Fin 4) :
    h.softReset p = Half.restarted h.seg.own p ∧ h.setIdle.softReset p = Half.restarted h.seg.own p :=
  ⟨rfl, (congrArg (fun x : SegControl => Half.restarted x.own p) (setIdle_seg h)).trans rfl⟩

/-- The lane in DOWN, with both sides restarted. -/
def Lane.restarted (cfg : LegConfig) (l : Lane) : Lane :=
  { l with
    state := .down, fc := 0, trainings := 0, failures := 0, drops := 0, retrains := 0, tQuiet := none,
    retrainRequested := false
    s := Half.restarted l.s.seg.own cfg.sTx
    c := Half.restarted l.c.seg.own cfg.cTx }

section SoftReset
variable (cfg : LegConfig) {l : Lane}

theorem Lane.softReset_off (h : l.state = .off) : l.softReset cfg =
    { l with
      fc := 0, trainings := 0, failures := 0, drops := 0, retrains := 0
      s := Half.restarted l.s.seg.own 0
      c := Half.restarted l.c.seg.own 0 } := if_pos h

theorem Lane.softReset_down (h : l.state ≠ .off) : l.softReset cfg = (l.restarted cfg).goOn cfg := by
  unfold Lane.softReset
  dsimp only
  rw [if_neg h, (Half.softReset_eq l.s cfg.sTx).2, (Half.softReset_eq l.c cfg.cTx).2]
  rfl

end SoftReset

/-- A side as SOFT_RESET leaves it: `trains` says whether its lane trains again (R32, R59). -/
def Half.softResetTo (trains : Prop) [Decidable trains] (own : Fin 16) (p : Fin 4) : Half :=
  if trains then (Half.restarted own p).detectEntry p else Half.restarted own p

/-- What a lane shows after SOFT_RESET. -/
theorem Lane.softReset_shows (cfg : LegConfig) (l : Lane) :
    let t := l.softReset cfg
    let trains := l.state ≠ .off ∧ l.hold = ⟨false, false, false⟩
    t.hold = l.hold ∧ t.fc = 0 ∧ t.failures = 0 ∧ t.drops = 0 ∧ t.retrains = 0 ∧ t.sPair = l.sPair ∧ t.cases = l.cases ∧
      (∀ e : Bool, let d := if e then Side.S else Side.C
        t.half d = Half.softResetTo trains (l.half d).seg.own
          (if l.state = .off then 0 else if e then cfg.sTx else cfg.cTx)) ∧
      t.state = (if l.state = .off then .off else if trains then .train else .down) ∧
      t.trainings = (if trains then 1 else 0) := by
  dsimp only
  unfold Half.softResetTo
  by_cases ho : l.state = .off
  · rw [Lane.softReset_off cfg ho]
    simp only [ho, ne_eq, not_true_eq_false, false_and, if_true, if_false, true_and, and_true]
    intro e
    cases e <;> rfl
  · rw [Lane.softReset_down cfg ho]
    simp only [if_neg ho]
    by_cases hh : l.hold = ⟨false, false, false⟩
    · rw [Lane.goOn_free cfg (l := l.restarted cfg) rfl hh]
      simp only [if_pos (And.intro ho hh)]
      refine ⟨rfl, rfl, rfl, rfl, rfl, rfl, rfl, fun e => ?_, rfl, rfl⟩
      cases e <;> rfl
    · rw [Lane.goOn_held cfg (l := l.restarted cfg) hh]
      simp only [if_neg fun c : l.state ≠ .off ∧ l.hold = ⟨false, false, false⟩ => hh c.2]
      refine ⟨rfl, rfl, rfl, rfl, rfl, rfl, rfl, fun e => ?_, rfl, rfl⟩
      cases e <;> rfl

/-- The side of the statement, its fields written out. -/
theorem Half.softResetTo_eq (trains : Prop) [Decidable trains] (own : Fin 16) (p : Fin 4) :
    Half.softResetTo trains own p =
      { seg :=
          { state := if trains then .detect else .idle
            own := if trains then own + 1 else own
            partner := none, reason := .none, polaritySuspect := false, marginal := false
            tAcquire := if trains then some 60 else none
            tRelock := none, tTune := none, synchronised := false, ownReady := false, partnerReady := false
            echo := ⟨0, 0, 0, 0, 0⟩, finalFom := none }
        tx := ⟨presetSetting p, []⟩
        resp := ⟨none, .none⟩
        req := ⟨none, none, 0, none, none⟩
        search := ⟨.none, 0, .post1, .minus, none, none, 0, false, false, none⟩
        scan := ⟨none, false, ⟨none, [0, 0, 0, 0, 0, 0], none⟩, 0⟩
        watch := ⟨none, false, 0⟩
        frameErrors := 0
        watchAlarms := 0 } := by
  unfold Half.softResetTo
  split <;> rfl

theorem softReset_eq (args : ActionArgs) (s : State) :
    exec (.softReset 0 args) s = .next (issueAction s 0 .softReset args 0) := rfl

/-- Settles O46: refused whole, or every lane restarted. -/
theorem softResetRestartsTheLanes : Obligations.SoftResetRestartsTheLanes := by
  intro args s hr
  refine ⟨_, softReset_eq args s, fun hp => ?_, fun hp => ?_⟩
  · have op : partOperation (s.readied 0 (byte Action.softReset.code) args) .softReset =
        (s.readied 0 (byte Action.softReset.code) args, .reason .imageFault) := by
      show State.softReset _ = _
      unfold State.softReset
      rw [show (s.readied 0 (byte Action.softReset.code) args).part = .imageFault from hp]
    obtain ⟨t, ht, reported, frame, hq, hport⟩ := issuePart_reported (a := .softReset) (args := args)
      (u := s.readied 0 (byte 14) args) hr rfl (congrArg Prod.snd op) (congrArg (fun x => State.quiet x.1) op) rfl
    rw [ht]
    exact ⟨reported, offAction_congr (frame.trans rfl) hq hport⟩
  · have running : (s.readied 0 (byte 14) args).part = .running := hp
    have op : partOperation (s.readied 0 (byte Action.softReset.code) args) .softReset =
        ((s.readied 0 (byte 14) args).softReset.1, .done) := by
      rw [softReset_running running]
      exact softReset_running running
    obtain ⟨t, ht, reported, frame, hq, hport⟩ := issuePart_reported (a := .softReset) (args := args)
      (u := (s.readied 0 (byte 14) args).softReset.1) hr rfl (congrArg Prod.snd op)
      (congrArg (fun x => State.quiet x.1) op) (by rw [softReset_running running]; rfl)
    rw [ht]
    have lane : ∀ i, t.lane i = (s.lane i).softReset (s.legConfig i) := fun i => by
      rw [frame]
      exact softReset_lane running i
    have legState : ∀ k, t.legState.get k =
        if (s.current.legs.get k).enabled then .forming else s.legState.get k := fun k => by
      rw [frame]
      exact softReset_legState running k
    refine ⟨reported, ?_, legState, fun i => ?_⟩
    · refine offAction_congr (a := { t with lanes := Tab.fill 8 .reset, legState := Tab.fill 4 .disabled })
        (b := { s with
          lanes := Tab.fill 8 .reset, legState := Tab.fill 4 .disabled, freeze := false,
          watchTimer := some (s.pWatch * 10) }) ?_ hq hport
      rw [frame, softReset_running running]
      rfl
    · have shows := Lane.softReset_shows (s.legConfig i) (s.lane i)
      rw [← lane i] at shows
      simp only [Half.softResetTo_eq] at shows
      obtain ⟨hold, fc, failures, drops, retrains, sPair, cases, sides, state, trainings⟩ := shows
      exact ⟨hold, fc, failures, drops, retrains, sPair, cases, sides, state, trainings⟩

end Sys2Proof.Machine
end

section
/-! SUPPORT. An action that names lanes: its lane operations one after the other (R147, R148), the Leg Engine's response to
those that leave CARRY (R56), and RETRAIN, HOLD, RELEASE and CLEAR_COUNTERS (R149 to R152). -/

namespace Sys2Proof.Machine

/-! ## Lanes that move one after the other (R56) -/

/-- Each lane of a list is rewritten by its own rule, the first first. -/
def State.moveLanes (s : State) (g : LaneId → Lane → Lane) (is : List LaneId) : State :=
  is.foldl (fun t i => t.moveLane i (g i)) s

/-- A rule that keeps a lane in CARRY there. -/
def Staying (g : LaneId → Lane → Lane) : Prop := ∀ i l, l.state = .carry → (g i l).state = .carry

/-- A rule that leaves no lane in CARRY, and that a pull-back just before does not change. -/
structure Leaving (g : LaneId → Lane → Lane) : Prop where
  leaves : ∀ i l, (g i l).state ≠ .carry
  pulled : ∀ i l, l.state = .carry → g i l.pullBack = g i l

section Moves
variable {g : LaneId → Lane → Lane}

theorem moveLanes_cons (s : State) (g : LaneId → Lane → Lane) (i : LaneId) (is : List LaneId) :
    s.moveLanes g (i :: is) = (s.moveLane i (g i)).moveLanes g is := rfl

theorem moveLanes_lanesOnly (s : State) (g : LaneId → Lane → Lane) (is : List LaneId) : LanesOnly s (s.moveLanes g is) := by
  induction is generalizing s with
  | nil => exact .refl s
  | cons i is ih => exact (moveLane_eq s i (g i)).1.trans (ih _)

/-- Another lane's move leaves a lane as it is or pulls it back (R56). -/
theorem moveLane_other (s : State) {i j : LaneId} (f : Lane → Lane) (hj : j ≠ i) : (s.moveLane i f).lane j = s.lane j ∨
    ((s.moveLane i f).lane j = (s.lane j).pullBack ∧ (s.lane j).state = .carry ∧ (s.lane i).state = .carry ∧
      s.legOf j = s.legOf i) := by
  rw [(moveLane_eq s i f).2.2.1 j hj]
  split
  · next h =>
    obtain ⟨hi, -, -, hleg, hc⟩ := h
    exact .inr ⟨rfl, hc, hi, hleg⟩
  · exact .inl rfl

/-- Where no lane leaves CARRY, each lane of the list moves alone. -/
theorem moveLanes_staying (hg : Staying g) {is : List LaneId} (hn : is.Nodup) (s : State) :
    (s.moveLanes g is).legState = s.legState ∧ (∀ i ∈ is, (s.moveLanes g is).lane i = g i (s.lane i)) ∧
      ∀ j, j ∉ is → (s.moveLanes g is).lane j = s.lane j := by
  induction is generalizing s with
  | nil => exact ⟨rfl, nofun, fun _ _ => rfl⟩
  | cons i is ih =>
    obtain ⟨hi, hn⟩ := List.nodup_cons.mp hn
    have alone : s.moveLane i (g i) = s.setLane i (g i (s.lane i)) := moveLane_alone fun c => c.2 (hg i _ c.1)
    obtain ⟨leg, named, others⟩ := ih hn (s.moveLane i (g i))
    have moved : ∀ j, (s.moveLane i (g i)).lane j = if j = i then g i (s.lane i) else s.lane j := fun j => by
      rw [alone, State.lane_setLane]
    refine ⟨leg.trans (by rw [alone]; rfl), fun j hj => ?_, fun j hj => ?_⟩
    · rcases List.mem_cons.mp hj with rfl | hj
      · exact (others _ hi).trans ((moved _).trans (if_pos rfl))
      · have hji : j ≠ i := fun e => hi (e ▸ hj)
        exact (named j hj).trans (by rw [moved, if_neg hji])
    · rw [List.mem_cons, not_or] at hj
      exact (others j hj.2).trans ((moved j).trans (if_neg hj.1))

/-- Where every lane of the list leaves CARRY: each has moved, the others in CARRY beside a lane that was in CARRY are pulled
back, and everything else is left alone (R56). -/
theorem moveLanes_leaving (hg : Leaving g) {is : List LaneId} (hn : is.Nodup) (s : State) :
    (∀ i ∈ is, (s.moveLanes g is).lane i = g i (s.lane i)) ∧
      (∀ j, j ∉ is → (s.lane j).state ≠ .carry ∨ (∀ i ∈ is, s.legOf i ≠ s.legOf j) →
        (s.moveLanes g is).lane j = s.lane j) ∧
      (∀ j, j ∉ is → ∀ i ∈ is, (s.lane j).state = .carry → (s.lane i).state = .carry → s.legOf i = s.legOf j →
        s.legOf j ≠ none → (s.moveLanes g is).lane j = (s.lane j).pullBack) ∧
      ∀ k, (∀ i ∈ is, s.legOf i ≠ some k) → (s.moveLanes g is).legState.get k = s.legState.get k := by
  induction is generalizing s with
  | nil => exact ⟨nofun, fun _ _ _ => rfl, fun _ _ _ hi => (List.not_mem_nil hi).elim, fun _ _ => rfl⟩
  | cons i is ih =>
    obtain ⟨hi, hn⟩ := List.nodup_cons.mp hn
    obtain ⟨only, self, others, leg⟩ := moveLane_eq s i (g i)
    obtain ⟨named, same, pulled, legs⟩ := ih hn (s.moveLane i (g i))
    simp only [only.legOf] at same pulled legs
    rw [moveLanes_cons]
    refine ⟨fun j hj => ?_, fun j hj h => ?_, fun j hj m hm hc hmc hleg hsome => ?_, fun k hk => ?_⟩
    · rcases List.mem_cons.mp hj with rfl | hj
      · exact (same _ hi (.inl (by rw [self]; exact hg.leaves _ _))).trans self
      · have hji : j ≠ i := fun e => hi (e ▸ hj)
        refine (named j hj).trans ?_
        rcases moveLane_other s (g i) hji with e | ⟨e, hc, -⟩
        · rw [e]
        · rw [e, hg.pulled j _ hc]
    · rw [List.mem_cons, not_or] at hj
      have kept : (s.moveLane i (g i)).lane j = s.lane j := by
        rcases moveLane_other s (g i) hj.1 with e | ⟨-, hc, -, hleg⟩
        · exact e
        · exact absurd hleg.symm (h.resolve_left (fun c => c hc) i (.head _))
      refine (same j hj.2 ?_).trans kept
      rw [kept]
      exact h.imp_right fun h m hm => h m (.tail _ hm)
    · rw [List.mem_cons, not_or] at hj
      by_cases beside : (s.lane i).state = .carry ∧ s.legOf j = s.legOf i
      · have back : (s.moveLane i (g i)).lane j = (s.lane j).pullBack := by
          rw [others j hj.1, if_pos ⟨beside.1, hg.leaves _ _, fun e => hsome (beside.2.trans e), beside.2, hc⟩]
        exact (same j hj.2 (.inl (by rw [back]; nofun))).trans back
      · have kept : ∀ n, n ≠ i → s.legOf n = s.legOf j → (s.moveLane i (g i)).lane n = s.lane n := fun n hn hnj => by
          rcases moveLane_other s (g i) hn with e | ⟨-, -, hic, hni⟩
          · exact e
          · exact absurd ⟨hic, hnj.symm.trans hni⟩ beside
        have hmi : m ≠ i := fun e => beside ⟨e ▸ hmc, (e ▸ hleg).symm⟩
        have hm : m ∈ is := (List.mem_cons.mp hm).resolve_left hmi
        have := pulled j hj.2 m hm (by rwa [kept j hj.1 rfl]) (by rwa [kept m hmi hleg]) hleg hsome
        rwa [kept j hj.1 rfl] at this
    · refine (legs k fun m hm => hk m (.tail _ hm)).trans ?_
      rw [leg]
      split
      · cases e : s.legOf i with
        | none => rfl
        | some m => exact Tab.get_set_ne _ _ fun ekm => hk i (.head _) (ekm ▸ e)
      · rfl

end Moves

end Sys2Proof.Machine
end

section
/-! SUPPORT. An action that names lanes: its request fields, its per-lane outcomes and what it leaves of the part (R143,
R146 to R148, R180). -/

namespace Sys2Proof.Machine

/-! ## Moves beside a port -/

theorem moveLane_setPort (s : State) (p : PortId) (x : Port) (i : LaneId) (f : Lane → Lane) :
    (s.setPort p x).moveLane i f = (s.moveLane i f).setPort p x := by
  show State.moveLane (s.setPort p x) i f = _
  unfold State.moveLane
  by_cases h : (s.lane i).state = .carry ∧ (f (s.lane i)).state ≠ .carry
  · dsimp only [State.lane_setPort, State.legOf_setPort]
    rw [if_pos h, if_pos h]
    split <;> rfl
  · dsimp only [State.lane_setPort]
    rw [if_neg h, if_neg h]
    rfl

theorem moveLanes_setPort (s : State) (p : PortId) (x : Port) (g : LaneId → Lane → Lane) (is : List LaneId) :
    (s.setPort p x).moveLanes g is = (s.moveLanes g is).setPort p x := by
  induction is generalizing s with
  | nil => rfl
  | cons i is ih => rw [moveLanes_cons, moveLanes_cons, moveLane_setPort, ih]

theorem setPort_setPort (s : State) (p : PortId) (x y : Port) : (s.setPort p x).setPort p y = s.setPort p y := by
  simp only [State.setPort, Tab.set_set]

theorem LanesOnly.port {s t : State} (h : LanesOnly s t) (p : PortId) : t.port p = s.port p := by
  rw [State.port, h.ports, State.port]

/-! ## The lanes an action names -/

/-- The lanes that the mask bits of a list name (R146). -/
def namedLanes (s : State) (p : PortId) (args : ActionArgs) (bs : List (Fin 8)) : List LaneId :=
  bs.filterMap fun b => if args.mask.getLsbD b.val then viewLane s p b else none

theorem mem_namedLanes {s : State} {p : PortId} {args : ActionArgs} {bs : List (Fin 8)} {i : LaneId} :
    i ∈ namedLanes s p args bs ↔ ∃ b ∈ bs, names s p args b i := by
  unfold namedLanes
  rw [List.mem_filterMap]
  refine exists_congr fun b => and_congr_right fun _ => ?_
  simp [names]

theorem mem_namedLanes_all {s : State} {p : PortId} {args : ActionArgs} {i : LaneId} :
    i ∈ namedLanes s p args (Tab.indices 8) ↔ ∃ b, names s p args b i := by
  simp [mem_namedLanes]

theorem not_mem_namedLanes {s : State} {p : PortId} {args : ActionArgs} {j : LaneId} (h : ∀ b, ¬ names s p args b j) :
    j ∉ namedLanes s p args (Tab.indices 8) := fun c => (mem_namedLanes_all.mp c).elim h

theorem Tab.indices_nodup (n : Nat) : (Tab.indices n).Nodup := List.nodup_ofFn.mpr fun _ _ h => h

theorem namedLanes_nodup {s : State} {p : PortId} (args : ActionArgs) (h : viewOnce s p) :
    (namedLanes s p args (Tab.indices 8)).Nodup := by
  refine (Tab.indices_nodup 8).filterMap fun b b' i hb hb' => ?_
  have view : ∀ c : Fin 8, (i ∈ if args.mask.getLsbD c.val then viewLane s p c else none) → viewLane s p c = some i :=
    fun c hc => by
      split at hc
      · exact hc
      · cases hc
  exact h b b' i (view b hb) (view b' hb')

theorem moveLanes_append (s : State) (g : LaneId → Lane → Lane) (is js : List LaneId) :
    s.moveLanes g (is ++ js) = (s.moveLanes g is).moveLanes g js := List.foldl_append

/-! ## One lane operation after the other -/

/-- Every lane operation of an action rewrites its lane by a rule of its own, with an outcome that the lane alone decides, and
that a pull-back just before does not change. -/
structure LaneRule (s : State) (p : PortId) (a : Action) (args : ActionArgs) (g : LaneId → Lane → Lane)
    (out : Lane → LaneOutcome) : Prop where
  takes : ∀ t, ActionOnly p s t → ∀ i, laneOperation t p a args i = (t.moveLane i (g i), out (t.lane i))
  pulled : ∀ l : Lane, l.state = .carry → out l.pullBack = out l

/-- The outcome that a named bit takes in a state (R146, R148). -/
def bitOutcome (s : State) (p : PortId) (out : Lane → LaneOutcome) (t : State) (b : Fin 8) : LaneOutcome :=
  match viewLane s p b with
  | none => .notMapped
  | some i => out (t.lane i)

/-- Port `x` with its per-lane outcomes replaced. -/
def Port.withOutcomes (x : Port) (outs : Tab 8 LaneOutcome) : Port := { x with action := { x.action with perLane := outs } }

/-- The per-lane outcomes after the bits of a list have been taken (R147). -/
def outcomesAfter (s : State) (p : PortId) (args : ActionArgs) (out : Lane → LaneOutcome) (t : State)
    (bs : List (Fin 8)) : Tab 8 LaneOutcome :=
  Tab.ofFn fun b => if b ∈ bs ∧ args.mask.getLsbD b.val = true then bitOutcome s p out t b
    else (t.port p).action.perLane.get b

section Fold
variable {s t : State} {p : PortId} {a : Action} {args : ActionArgs} {g : LaneId → Lane → Lane} {out : Lane → LaneOutcome}

theorem ActionOnly.viewLane (ht : ActionOnly p s t) (b : Fin 8) : viewLane t p b = viewLane s p b := by
  obtain ⟨-, -, inverse, wiring, current, -⟩ := ht.keeps
  unfold Machine.viewLane
  rw [inverse, wiring, current]

/-- A named bit is taken: the lane it names moves, and the outcome is written (R146, R148). -/
theorem takeLane_named (rule : LaneRule s p a args g out) (ht : ActionOnly p s t) (hargs : (t.port p).action.args = args)
    {b : Fin 8} (hb : args.mask.getLsbD b.val = true) : takeLane p a 0 t b =
      (t.moveLanes g (namedLanes s p args [b])).setPort p
        ((t.port p).withOutcomes ((t.port p).action.perLane.set b (bitOutcome s p out t b))) := by
  unfold takeLane bitOutcome namedLanes
  dsimp only
  rw [hargs, if_neg (by rw [hb]; nofun), ht.viewLane, List.filterMap_cons, if_pos hb, List.filterMap_nil]
  cases viewLane s p b with
  | none => rfl
  | some i =>
    have moved : ∀ o, (t.moveLane i (g i)).setOutcome p b o = (t.moveLane i (g i)).setPort p
        ((t.port p).withOutcomes ((t.port p).action.perLane.set b o)) := fun o => by
      rw [← (moveLane_eq t i (g i)).1.port p]
      rfl
    dsimp only
    rw [rule.takes t ht, if_neg (by simp), moved]
    rfl

/-- A bit that is not named is passed over (R147). -/
theorem takeLane_unnamed (hargs : (t.port p).action.args = args) {b : Fin 8} (hb : args.mask.getLsbD b.val = false) :
    takeLane p a 0 t b = t := by
  unfold takeLane
  dsimp only
  rw [hargs, if_pos hb]

/-- A bit's outcome does not change while other bits are taken (R11, R56). -/
theorem bitOutcome_stable (rule : LaneRule s p a args g out) (once : viewOnce s p) {b c : Fin 8} (hc : c ≠ b) :
    bitOutcome s p out (t.moveLanes g (namedLanes s p args [b])) c = bitOutcome s p out t c := by
  unfold bitOutcome
  cases hv : viewLane s p c with
  | none => rfl
  | some j =>
    dsimp only
    unfold namedLanes
    rw [List.filterMap_cons]
    split
    · rfl
    · next i hi =>
      have hvi : viewLane s p b = some i := by
        split at hi
        · exact hi
        · cases hi
      have hj : j ≠ i := fun e => hc (once c b i (e ▸ hv) hvi)
      rcases moveLane_other t (g i) hj with e | ⟨e, carry, -⟩
      · exact congrArg out e
      · exact (congrArg out e).trans (rule.pulled _ carry)

/-- The bits of a list, taken one after the other. -/
theorem foldl_takeLane (rule : LaneRule s p a args g out) (once : viewOnce s p) {bs : List (Fin 8)} (hn : bs.Nodup)
    (ht : ActionOnly p s t) (hargs : (t.port p).action.args = args) : bs.foldl (takeLane p a 0) t =
      (t.moveLanes g (namedLanes s p args bs)).setPort p ((t.port p).withOutcomes (outcomesAfter s p args out t bs)) := by
  induction bs generalizing t with
  | nil =>
    have none : outcomesAfter s p args out t [] = (t.port p).action.perLane := by
      apply Tab.ext_get
      intro b
      simp [outcomesAfter]
    rw [none]
    exact (State.setPort_port_self t p).symm
  | cons b bs ih =>
    obtain ⟨hb, hn⟩ := List.nodup_cons.mp hn
    rw [List.foldl_cons]
    by_cases hm : args.mask.getLsbD b.val = true
    · have taken := takeLane_named rule ht hargs hm
      have only := ht.trans (takeLane_actionOnly p a 0 t b)
      rw [taken] at only ⊢
      rw [ih hn only (by rw [State.port_setPort_self]; exact hargs), moveLanes_setPort, setPort_setPort,
        State.port_setPort_self]
      have lanes : namedLanes s p args (b :: bs) = namedLanes s p args [b] ++ namedLanes s p args bs :=
        List.filterMap_append (l := [b])
      have outs : outcomesAfter s p args out ((t.moveLanes g (namedLanes s p args [b])).setPort p
          ((t.port p).withOutcomes ((t.port p).action.perLane.set b (bitOutcome s p out t b)))) bs =
            outcomesAfter s p args out t (b :: bs) := by
        apply Tab.ext_get
        intro c
        unfold outcomesAfter
        rw [Tab.get_ofFn, Tab.get_ofFn, State.port_setPort_self]
        by_cases hcb : c = b
        · rw [hcb, if_neg fun h => hb h.1, if_pos ⟨.head _, hm⟩]
          exact Tab.get_set_self _ _ _
        · have iff : (c ∈ b :: bs ∧ args.mask.getLsbD c.val = true) ↔ (c ∈ bs ∧ args.mask.getLsbD c.val = true) := by
            simp [hcb]
          have stable := bitOutcome_stable (t := t) rule once hcb
          simp only [iff]
          split
          · exact stable
          · exact Tab.get_set_ne _ _ hcb
      rw [outs, lanes, moveLanes_append]
      rfl
    · rw [Bool.not_eq_true] at hm
      rw [takeLane_unnamed hargs hm, ih hn ht hargs]
      have lanes : namedLanes s p args (b :: bs) = namedLanes s p args bs := by
        unfold namedLanes
        rw [List.filterMap_cons, if_neg (by rw [hm]; nofun)]
      have outs : outcomesAfter s p args out t (b :: bs) = outcomesAfter s p args out t bs := by
        apply Tab.ext_get
        intro c
        unfold outcomesAfter
        rw [Tab.get_ofFn, Tab.get_ofFn]
        have iff : (c ∈ b :: bs ∧ args.mask.getLsbD c.val = true) ↔ (c ∈ bs ∧ args.mask.getLsbD c.val = true) := by
          refine and_congr_left fun h => List.mem_cons.trans (or_iff_right fun e => ?_)
          rw [e, hm] at h
          cases h
        simp only [iff]
      rw [lanes, outs]

end Fold

end Sys2Proof.Machine
end

section
/-! SUPPORT. The write stop of an action that names lanes (R143, R146 to R148, R180), and RETRAIN, HOLD, RELEASE and
CLEAR_COUNTERS (R149 to R152). -/

namespace Sys2Proof.Machine

/-! ## The write stop of an action that names lanes -/

section Issue
variable {s : State} {p : PortId} {a : Action} {args : ActionArgs} {g : LaneId → Lane → Lane} {out : Lane → LaneOutcome}

/-- The per-lane outcomes of an action whose lanes are all taken in its own event (R146, R147). -/
def actionOutcomes (s : State) (p : PortId) (args : ActionArgs) (out : Lane → LaneOutcome) : Tab 8 LaneOutcome :=
  Tab.ofFn fun b => if args.mask.getLsbD b.val = true then bitOutcome s p out s b else .none

/-- Port `x` after such an action (R143, R147, R180). -/
def Port.acted (x : Port) (code : Byte) (args : ActionArgs) (outs : Tab 8 LaneOutcome) : Port :=
  { x with
    action := ⟨code, args, overallOf args.mask outs, outs⟩
    status := x.status.afterWrite 0x30 ⟨2, 0, 0, none⟩ }

theorem readied_actionOnly (s : State) (p : PortId) (code : Byte) (args : ActionArgs) :
    ActionOnly p s (s.readied p code args) := ActionOnly.setPort p s _ _

theorem runLanes_eq (rule : LaneRule s p a args g out) (once : viewOnce s p) (hout : (s.port p).handed = [])
    (ha : a.usesMask = true) :
    ((s.setAction p fun x => x.requested (byte a.code) args).runAction p a 0).setStatus p
        (fun st => st.afterWrite 0x30 ⟨2, 0, 0, none⟩) =
      (s.moveLanes g (namedLanes s p args (Tab.indices 8))).setPort p
        ((s.port p).acted (byte a.code) args (actionOutcomes s p args out)) := by
  have ready : ((s.setAction p fun x => x.requested (byte a.code) args).setAction p fun x =>
      { x with perLane := Tab.fill 8 .none }) = s.readied p (byte a.code) args := by
    simp only [State.setAction, State.readied, State.port_setPort_self, ActionBlock.requested]
    simp only [State.setPort, Tab.set_set]
  have port : (s.readied p (byte a.code) args).port p = { s.port p with
      action := ⟨byte a.code, args, (s.port p).action.overall, Tab.fill 8 .none⟩ } := State.port_setPort_self _ _ _
  have outs : outcomesAfter s p args out (s.readied p (byte a.code) args) (Tab.indices 8) =
      actionOutcomes s p args out := by
    apply Tab.ext_get
    intro b
    unfold outcomesAfter actionOutcomes
    rw [Tab.get_ofFn, Tab.get_ofFn, port]
    simp only [Tab.mem_indices, true_and, Tab.get_fill]
    rfl
  unfold State.runAction
  dsimp only
  rw [if_pos ha, ready, foldl_takeLane rule once (Tab.indices_nodup 8) (readied_actionOnly s p _ args)
    (congrArg (fun x : Port => x.action.args) port), outs, port, State.readied, moveLanes_setPort, setPort_setPort]
  generalize s.moveLanes g (namedLanes s p args (Tab.indices 8)) = u
  unfold State.closeAction State.setStatus State.setAction
  rw [State.port_setPort_self]
  dsimp only [Port.withOutcomes]
  rw [hout]
  dsimp only
  rw [State.port_setPort_self, setPort_setPort, setPort_setPort]
  unfold Port.acted
  rw [hout]

/-- An action that names lanes, in one event: the named lanes move, and the action is reported at the port (R143, R146 to
R148, R180). -/
theorem issueLanes_reported (rule : LaneRule s p a args g out) (once : viewOnce s p) (hr : actionReady s p a.code)
    (ha : a.usesMask = true) (hargs : argumentsOk a args = true) :
    let t := issueAction s p a args 0
    actionReported s t p a.code args ∧ (t.offLanes).offAction p = (s.offLanes).offAction p ∧
      (∀ i, t.lane i = (s.moveLanes g (namedLanes s p args (Tab.indices 8))).lane i) ∧
      t.legState = (s.moveLanes g (namedLanes s p args (Tab.indices 8))).legState ∧
      ∀ b i, names s p args b i → (t.port p).action.perLane.get b = out (s.lane i) := by
  have hout : (s.port p).handed = [] := hr.2.1
  have only := moveLanes_lanesOnly s g (namedLanes s p args (Tab.indices 8))
  dsimp only
  rw [issueAction_eq a args 0 hr hargs]
  dsimp only
  rw [runLanes_eq rule once hout ha]
  generalize s.moveLanes g (namedLanes s p args (Tab.indices 8)) = u at only ⊢
  generalize some (p, s.setAction p fun x => x.requested (byte a.code) args) = own
  obtain ⟨frame, bitmaps⟩ := track_eq s own
    (u.setPort p ((s.port p).acted (byte a.code) args (actionOutcomes s p args out)))
  have lane := track_lane s own (u.setPort p ((s.port p).acted (byte a.code) args (actionOutcomes s p args out)))
  generalize track s own (u.setPort p ((s.port p).acted (byte a.code) args (actionOutcomes s p args out))) = t
    at frame bitmaps lane ⊢
  have port : t.port p = { (s.port p).acted (byte a.code) args (actionOutcomes s p args out) with
      bitmap := (t.port p).bitmap } := (bitmaps p).trans (by rw [State.port_setPort_self])
  have outcome : ∀ b, (t.port p).action.perLane.get b =
      if args.mask.getLsbD b.val = true then bitOutcome s p out s b else .none := fun b => by
    rw [port]
    exact Tab.get_ofFn _ _
  refine ⟨⟨by rw [port]; rfl, by rw [port]; rfl, by rw [port]; exact hout, fun b hb => ?_, fun b hb hv => ?_,
    by rw [port]; rfl, ?_⟩, ?_, lane, by rw [frame]; rfl, fun b i hb => ?_⟩
  · rw [outcome, if_neg (by rw [hb]; nofun)]
  · rw [outcome, if_pos hb, bitOutcome, hv]
  · rw [port]
    simp only [Port.acted, PortStatus.afterWrite, raiseStatus, statusMax, Nat.add_zero, Option.map_none]
    rfl
  · have other : ∀ q, q ≠ p → t.port q = { s.port q with bitmap := (t.port q).bitmap } := fun q hq =>
      (bitmaps q).trans (by rw [State.port_setPort_ne _ _ hq, only.port])
    refine offAction_congr (a := { t with lanes := Tab.fill 8 .reset, legState := Tab.fill 4 .disabled })
      (b := { s with lanes := Tab.fill 8 .reset, legState := Tab.fill 4 .disabled }) ?_ (fun q hq => ⟨_, other q hq⟩)
      ⟨_, _, _, _, port⟩
    rw [frame, only]
    rfl
  · obtain ⟨hm, hv⟩ := hb
    rw [outcome, if_pos hm, bitOutcome, hv]

/-- An action by which no lane leaves CARRY touches the named lanes alone. -/
theorem issueLanes_staying (rule : LaneRule s p a args g out) (hg : Staying g) (once : viewOnce s p)
    (hr : actionReady s p a.code) (ha : a.usesMask = true) (hargs : argumentsOk a args = true) :
    let t := issueAction s p a args 0
    actionReported s t p a.code args ∧ (t.offLanes).offAction p = (s.offLanes).offAction p ∧
      t.legState = s.legState ∧ (∀ j, (∀ b, ¬ names s p args b j) → t.lane j = s.lane j) ∧
      ∀ b i, names s p args b i → (t.port p).action.perLane.get b = out (s.lane i) ∧ t.lane i = g i (s.lane i) := by
  obtain ⟨reported, frame, lane, leg, outcome⟩ := issueLanes_reported rule once hr ha hargs
  obtain ⟨legs, named, others⟩ := moveLanes_staying hg (namedLanes_nodup args once) s
  exact ⟨reported, frame, leg.trans legs, fun j hj => (lane j).trans (others j (not_mem_namedLanes hj)),
    fun b i hb => ⟨outcome b i hb, (lane i).trans (named i (mem_namedLanes_all.mpr ⟨b, hb⟩))⟩⟩

/-- An action by which every named lane leaves CARRY: the Leg Engine pulls the others in CARRY beside it back (R56). -/
theorem issueLanes_leaving (rule : LaneRule s p a args g out) (hg : Leaving g) (once : viewOnce s p) (hc : s.carryLaw)
    (hr : actionReady s p a.code) (ha : a.usesMask = true) (hargs : argumentsOk a args = true) :
    let t := issueAction s p a args 0
    actionReported s t p a.code args ∧ (t.offLanes).offAction p = (s.offLanes).offAction p ∧ besideNamed s t p args ∧
      ∀ b i, names s p args b i → (t.port p).action.perLane.get b = out (s.lane i) ∧ t.lane i = g i (s.lane i) := by
  obtain ⟨reported, frame, lane, leg, outcome⟩ := issueLanes_reported rule once hr ha hargs
  obtain ⟨named, same, pulled, legs⟩ := moveLanes_leaving hg (namedLanes_nodup args once) s
  refine ⟨reported, frame, ⟨fun j hj => ⟨fun h => (lane j).trans (same j (not_mem_namedLanes hj) ?_),
    fun b i carry hb hleg => (lane j).trans (pulled j (not_mem_namedLanes hj) i (mem_namedLanes_all.mpr ⟨b, hb⟩) carry
      ?_ hleg ?_)⟩, fun k hk => ?_⟩,
    fun b i hb => ⟨outcome b i hb, (lane i).trans (named i (mem_namedLanes_all.mpr ⟨b, hb⟩))⟩⟩
  · refine h.imp_right fun h i hi => ?_
    obtain ⟨b, hb⟩ := mem_namedLanes_all.mp hi
    exact h b i hb
  · have live := (hc j).mp carry
    rw [hc i]
    unfold State.legLive at live ⊢
    rwa [hleg]
  · intro none
    have live := (hc j).mp carry
    rw [legLive_none none] at live
    cases live
  · rw [leg]
    refine legs k fun i hi => ?_
    obtain ⟨b, hb⟩ := mem_namedLanes_all.mp hi
    exact hk b i hb

end Issue

end Sys2Proof.Machine
end

section
/-! SUPPORT. RETRAIN, HOLD, RELEASE and CLEAR_COUNTERS (R149 to R152), each by its rule for one lane. -/

namespace Sys2Proof.Machine

theorem ActionOnly.legConfig {p : PortId} {s t : State} (h : ActionOnly p s t) (i : LaneId) :
    t.legConfig i = s.legConfig i := by
  obtain ⟨-, route, -, -, -, -, -, -, legs, -⟩ := h.keeps
  unfold State.legConfig State.legOf
  rw [route, legs]

/-- A move looks at what its rule makes of the lane as it stands. -/
theorem moveLane_congr {s : State} {i : LaneId} {f f' : Lane → Lane} (h : f (s.lane i) = f' (s.lane i)) :
    s.moveLane i f = s.moveLane i f' := by
  unfold State.moveLane
  dsimp only
  rw [h]

/-- A rule that leaves the lane as it stands is no move. -/
theorem moveLane_same {s : State} {i : LaneId} {f : Lane → Lane} (h : f (s.lane i) = s.lane i) : s.moveLane i f = s := by
  rw [moveLane_alone fun c => c.2 (h.symm ▸ c.1), h, State.setLane_lane_self]

/-! ## A pull-back just before a lane leaves READY or CARRY (R56, R109) -/

theorem abandon_abandon (h : Half) (o : Origin) : (h.abandon o).abandon o = h.abandon o := by
  rw [abandon_eq, abandon_eq, Option.filter_filter]
  simp only [Bool.and_self]

theorem abandon_abandonAll (h : Half) (o : Origin) : (h.abandon o).abandonAll = h.abandonAll := by
  rw [abandon_eq]
  rfl

theorem Lane.pullBack_trainFresh (cfg : LegConfig) (l : Lane) (n : Nat) :
    Lane.trainFresh cfg { l.pullBack with fc := n } = Lane.trainFresh cfg { l with fc := n } := by
  have s : (l.s.abandon .watch).abandon .watch = l.s.abandon .watch := abandon_abandon _ _
  have c : (l.c.abandon .watch).abandon .watch = l.c.abandon .watch := abandon_abandon _ _
  unfold Lane.trainFresh
  dsimp only [Lane.pullBack, Lane.mapHalves]
  rw [s, c]

theorem Lane.pullBack_enterDown (l : Lane) : l.pullBack.enterDown = l.enterDown := by
  unfold Lane.enterDown
  dsimp only [Lane.pullBack, Lane.mapHalves]
  rw [abandon_abandonAll, abandon_abandonAll]

/-! ## RETRAIN (R149) -/

/-- RETRAIN at one lane. -/
def Lane.retrained (cfg : LegConfig) (l : Lane) : Lane :=
  if l.state = .off ∨ l.state = .down then l else Lane.trainFresh cfg { l with fc := 0 }

/-- Its outcome. -/
def Lane.retrainOutcome (l : Lane) : LaneOutcome :=
  if l.state = .off then .notMapped else if l.state = .down then .busy else .done

theorem Lane.retrained_trains (cfg : LegConfig) {l : Lane} (ho : l.state ≠ .off) (hd : l.state ≠ .down) :
    l.retrained cfg = Lane.trainFresh cfg { l with fc := 0 } := if_neg fun c => c.elim ho hd

theorem Lane.retrained_stays (cfg : LegConfig) {l : Lane} (h : l.state = .off ∨ l.state = .down) : l.retrained cfg = l :=
  if_pos h

theorem retrainLane_eq (s : State) (i : LaneId) :
    retrainLane s i = (s.moveLane i (Lane.retrained (s.legConfig i)), (s.lane i).retrainOutcome) := by
  unfold retrainLane Lane.retrainOutcome
  split
  · next ho => rw [if_pos ho, moveLane_same (Lane.retrained_stays _ (.inl ho))]
  · next hd =>
    rw [if_neg (by rw [hd]; nofun), if_pos hd, moveLane_same (Lane.retrained_stays _ (.inr hd))]
  · next ho hd =>
    rw [if_neg ho, if_neg hd]
    exact congrArg (·, LaneOutcome.done) (moveLane_congr (Lane.retrained_trains _ ho hd).symm)

theorem retrain_rule (s : State) (p : PortId) (args : ActionArgs) :
    LaneRule s p .retrain args (fun i => Lane.retrained (s.legConfig i)) Lane.retrainOutcome where
  takes t ht i := by
    rw [← ht.legConfig i]
    exact retrainLane_eq t i
  pulled l hc := by
    unfold Lane.retrainOutcome
    rw [hc]
    rfl

theorem retrain_leaving (s : State) : Leaving fun i => Lane.retrained (s.legConfig i) where
  leaves i l := by
    unfold Lane.retrained
    split
    · next h => rcases h with e | e <;> rw [e] <;> nofun
    · nofun
  pulled i l hc := by
    have trains := Lane.retrained_trains (s.legConfig i) (l := l) (by rw [hc]; nofun) (by rw [hc]; nofun)
    have after := Lane.retrained_trains (s.legConfig i) (l := l.pullBack) nofun nofun
    exact after.trans ((Lane.pullBack_trainFresh _ _ _).trans trains.symm)

/-- Settles O39, by the rule of RETRAIN at one lane. -/
theorem retrainTrainsTheNamedLanes : Obligations.RetrainTrainsTheNamedLanes := by
  intro p args s hr once hc
  obtain ⟨reported, frame, beside, named⟩ := issueLanes_leaving (retrain_rule s p args) (retrain_leaving s) once hc hr rfl rfl
  refine ⟨_, rfl, reported, frame, beside, fun b i hb => ?_⟩
  obtain ⟨outcome, lane⟩ := named b i hb
  refine ⟨fun ho hd => ⟨outcome.trans ?_, lane.trans (Lane.retrained_trains _ ho hd)⟩,
    fun hd => ⟨outcome.trans ?_, lane.trans (Lane.retrained_stays _ (.inr hd))⟩,
    fun ho => ⟨outcome.trans ?_, lane.trans (Lane.retrained_stays _ (.inl ho))⟩⟩
  · exact (if_neg ho).trans (if_neg hd)
  · exact (if_neg (by rw [hd]; nofun)).trans (if_pos hd)
  · exact if_pos ho

/-! ## HOLD and RELEASE (R150, R151) -/

/-- The outcome of an operation that a lane refuses in OFF alone (R146). -/
def Lane.mappedOutcome (l : Lane) : LaneOutcome := if l.state = .off then .notMapped else .done

theorem Lane.mappedOutcome_pullBack (l : Lane) (hc : l.state = .carry) : l.pullBack.mappedOutcome = l.mappedOutcome := by
  unfold Lane.mappedOutcome
  rw [hc]
  rfl

/-- A rule of a lane that is not OFF. -/
def Lane.mapped (f : Lane → Lane) (l : Lane) : Lane := if l.state = .off then l else f l

theorem Lane.mapped_off {f : Lane → Lane} {l : Lane} (h : l.state = .off) : l.mapped f = l := if_pos h

theorem Lane.mapped_on {f : Lane → Lane} {l : Lane} (h : l.state ≠ .off) : l.mapped f = f l := if_neg h

/-- An operation that refuses a lane in OFF and is done by every other. -/
theorem mappedOperation_eq {s u : State} {i : LaneId} {f : Lane → Lane} {x : State × LaneOutcome}
    (hx : x = if (s.lane i).state = .off then (s, .notMapped) else (u, .done)) (hu : u = s.moveLane i f) :
    x = (s.moveLane i (Lane.mapped f), (s.lane i).mappedOutcome) := by
  unfold Lane.mappedOutcome
  by_cases ho : (s.lane i).state = .off
  · rw [hx, if_pos ho, if_pos ho, moveLane_same (Lane.mapped_off ho)]
  · rw [hx, if_neg ho, if_neg ho, hu, moveLane_congr (Lane.mapped_on ho)]

/-- HOLD at one lane. -/
def Lane.heldBy (p : PortId) (l : Lane) : Lane := l.addHold (l.hold.withMember p true)

theorem hold_rule (s : State) (p : PortId) (args : ActionArgs) :
    LaneRule s p .hold args (fun _ => Lane.mapped (Lane.heldBy p)) Lane.mappedOutcome where
  takes t _ i := by
    refine mappedOperation_eq ?_ rfl
    show holdLane t p i = _
    unfold holdLane
    cases (t.lane i).state <;> rfl
  pulled := Lane.mappedOutcome_pullBack

theorem hold_leaving (p : PortId) : Leaving fun _ => Lane.mapped (Lane.heldBy p) where
  leaves _ l := by
    by_cases ho : l.state = .off
    · rw [Lane.mapped_off ho, ho]
      nofun
    · rw [Lane.mapped_on ho, Lane.heldBy, Lane.addHold_state]
      nofun
  pulled _ l hc := by
    have enters : ∀ m : Lane, m.state = .carry ∨ m.state = .ready →
        m.mapped (Lane.heldBy p) = { m.enterDown with hold := m.hold.withMember p true } := fun m hm => by
      rw [Lane.mapped_on (by rcases hm with e | e <;> rw [e] <;> nofun), Lane.heldBy, Lane.addHold,
        if_neg (by rcases hm with e | e <;> rw [e] <;> nofun)]
    rw [enters l (.inl hc), enters l.pullBack (.inr rfl), Lane.pullBack_enterDown]
    rfl

theorem Lane.addHold_shows (l : Lane) (x : HoldSet) : (l.addHold x).hold = x ∧ (l.state ≠ .down → (l.addHold x).fc = 0) ∧
    (l.addHold x).trainings = l.trainings ∧ (l.addHold x).drops = l.drops := by
  unfold Lane.addHold
  split
  · next h => exact ⟨rfl, fun c => absurd h c, rfl, rfl⟩
  · exact ⟨rfl, fun _ => rfl, rfl, rfl⟩

/-- RELEASE at one lane. -/
def Lane.releasedBy (p : PortId) (cfg : LegConfig) (l : Lane) : Lane :=
  Lane.goOn cfg { l with hold := l.hold.withMember p false }

theorem release_rule (s : State) (p : PortId) (args : ActionArgs) :
    LaneRule s p .release args (fun i => Lane.mapped (Lane.releasedBy p (s.legConfig i))) Lane.mappedOutcome where
  takes t ht i := by
    rw [← ht.legConfig i]
    refine mappedOperation_eq ?_ rfl
    show releaseLane t p i = _
    unfold releaseLane
    cases (t.lane i).state <;> rfl
  pulled := Lane.mappedOutcome_pullBack

theorem release_staying (s : State) (p : PortId) : Staying fun i => Lane.mapped (Lane.releasedBy p (s.legConfig i)) := by
  intro i l hc
  dsimp only
  rw [Lane.mapped_on (by rw [hc]; nofun)]
  exact (Lane.goOn_state_iff _ { l with hold := l.hold.withMember p false }).2.mpr hc

/-- Settles O40, by the rules of HOLD and RELEASE at one lane. -/
theorem holdAndReleaseMoveTheNamedLanes : Obligations.HoldAndReleaseMoveTheNamedLanes := by
  intro p args s once
  refine ⟨fun hr hc => ?_, fun hr => ?_⟩
  · obtain ⟨reported, frame, beside, named⟩ := issueLanes_leaving (hold_rule s p args) (hold_leaving p) once hc hr rfl rfl
    refine ⟨_, rfl, reported, frame, beside, fun b i hb ho => ?_, fun b i hb ho => ?_⟩
    · obtain ⟨outcome, lane⟩ := named b i hb
      rw [Lane.mapped_on ho] at lane
      obtain ⟨hold, fc, trainings, drops⟩ := (s.lane i).addHold_shows ((s.lane i).hold.withMember p true)
      rw [← Lane.heldBy, ← lane] at hold fc trainings drops
      exact ⟨outcome.trans (if_neg ho), lane, lane ▸ Lane.addHold_state _ _, hold, fc, trainings, drops⟩
    · obtain ⟨outcome, lane⟩ := named b i hb
      exact ⟨outcome.trans (if_pos ho), lane.trans (Lane.mapped_off ho)⟩
  · obtain ⟨reported, frame, leg, others, named⟩ := issueLanes_staying (release_rule s p args) (release_staying s p) once hr
      rfl rfl
    refine ⟨_, rfl, reported, frame, leg, fun b i hb ho => ?_, others⟩
    obtain ⟨outcome, lane⟩ := named b i hb
    rw [Lane.mapped_on ho] at lane
    refine ⟨outcome.trans (if_neg ho), lane.trans ?_⟩
    unfold Lane.releasedBy Lane.goOn
    simp only [HoldSet.isEmpty_iff]
    rfl

/-! ## CLEAR_COUNTERS (R152) -/

theorem clear_rule (s : State) (p : PortId) (args : ActionArgs) :
    LaneRule s p .clearCounters args (fun _ => Lane.mapped Lane.clearCounters) Lane.mappedOutcome where
  takes t _ i := by
    refine mappedOperation_eq ?_ (moveLane_alone fun c => c.2 c.1).symm
    show clearLane t i = _
    unfold clearLane
    cases (t.lane i).state <;> rfl
  pulled := Lane.mappedOutcome_pullBack

theorem clear_staying : Staying fun _ => Lane.mapped Lane.clearCounters := by
  intro i l hc
  dsimp only
  rw [Lane.mapped_on (by rw [hc]; nofun)]
  exact hc

/-- Settles O43, by the rule of CLEAR_COUNTERS at one lane. -/
theorem clearCountersZeroesTheNamedLanes : Obligations.ClearCountersZeroesTheNamedLanes := by
  intro p args s hr once
  obtain ⟨reported, frame, leg, others, named⟩ := issueLanes_staying (clear_rule s p args) clear_staying once hr rfl rfl
  refine ⟨_, rfl, reported, frame, leg, others, fun b i hb ho => ?_, fun b i hb ho => ?_⟩
  · obtain ⟨outcome, lane⟩ := named b i hb
    exact ⟨outcome.trans (if_neg ho), lane.trans (Lane.mapped_on ho)⟩
  · obtain ⟨outcome, lane⟩ := named b i hb
    exact ⟨outcome.trans (if_pos ho), lane.trans (Lane.mapped_off ho)⟩

end Sys2Proof.Machine
end

section
/-! SUPPORT. Properties of a side: one that every rewriting of a side keeps is kept at both sides of every lane by every
step. `LaneInvariant` asks that a failure restore its property whatever the sides of the lane hold, which suits laws of
states; a law of what a side holds is carried from side to side here. -/

namespace Sys2Proof.Machine

/-- A property of a side that each rewriting of a side keeps, where the model makes it. -/
structure SideInvariant (P : Half → Prop) : Prop where
  reset : P Half.reset
  change {ctx : Ctx} {l : Lane} {h h' : Half} : P h → SideChange ctx l h h' → P h'
  event {ctx : Ctx} {l : Lane} {h : Half} {o : Out} : P h → SideEvent ctx l h o → P o.half
  fails {h : Half} (r : FailReason) : P h → P { h with seg := { h.seg with reason := r } }
  idle {h : Half} : P h → P h.setIdle
  detect {h : Half} (n : Fin 4) : P h → P (h.detectEntry n)
  restarted {h : Half} (n : Fin 4) : P h → P (h.softReset n)
  loaded {h : Half} (n : Fin 4) : P h → P { h with tx := TxUnit.load n }
  abandoned {h : Half} (o : Origin) : P h → P (h.abandon o)
  abandonedAll {h : Half} : P h → P h.abandonAll
  carries {h : Half} : P h → P { h with watch := ⟨h.seg.finalFom, false, 0⟩ }
  cleared {h : Half} : P h → P { h with frameErrors := 0, watchAlarms := 0, scan := { h.scan with count := 0 } }

/-- Both sides of a lane have a property. -/
def Lane.both (P : Half → Prop) (l : Lane) : Prop := P l.s ∧ P l.c

section Both
variable {P : Half → Prop} {l : Lane}

theorem Lane.both.half (h : l.both P) (d : Side) : P (l.half d) := by
  cases d
  · exact h.1
  · exact h.2

theorem Lane.both.setHalf {x : Half} (h : l.both P) (d : Side) (hx : P x) : (l.setHalf d x).both P := by
  cases d
  · exact ⟨hx, h.2⟩
  · exact ⟨h.1, hx⟩

theorem Lane.both.map {f : Half → Half} (h : l.both P) (hf : ∀ x, P x → P (f x)) : (l.mapHalves f).both P :=
  ⟨hf _ h.1, hf _ h.2⟩

end Both

namespace SideInvariant
variable {P : Half → Prop} (hP : SideInvariant P) {l : Lane} {s : State} {i : LaneId}
include hP

/-! ## Lane entries -/

theorem trainFresh (cfg : LegConfig) (h : l.both P) : (l.trainFresh cfg).both P :=
  ⟨hP.detect _ (hP.idle (hP.abandoned _ h.1)), hP.detect _ (hP.idle (hP.abandoned _ h.2))⟩

theorem enterDown (h : l.both P) : l.enterDown.both P :=
  ⟨hP.idle (hP.abandonedAll h.1), hP.idle (hP.abandonedAll h.2)⟩

theorem goOn (cfg : LegConfig) (h : l.both P) : (l.goOn cfg).both P := by
  unfold Lane.goOn
  split
  · exact hP.trainFresh cfg h
  · exact h

theorem loadTx (a b : Fin 4) (h : l.both P) : (l.loadTx a b).both P := ⟨hP.loaded a h.1, hP.loaded b h.2⟩

theorem enterOff (h : l.both P) : l.enterOff.both P :=
  hP.loadTx 0 0 (l := { l.enterDown with
    state := .off, hold := HoldSet.none, sPair := none, cases := [] }) (hP.enterDown h)

theorem enable (cfg : LegConfig) (line : Bool) (pair : Option SwitchLane) (h : l.both P) :
    (l.enable cfg line pair).both P :=
  hP.goOn cfg (hP.loadTx _ _ (l := { l.enterDown with
    hold := { HoldSet.none with line := line }, sPair := pair, cases := [] }) (hP.enterDown h))

theorem fail (d : Side) (r : FailReason) (h : l.both P) : (l.fail d r).both P := by
  have failed := h.setHalf d (hP.fails r (h.half d))
  exact ⟨hP.idle failed.1, hP.idle failed.2⟩

theorem addHold (x : HoldSet) (h : l.both P) : (l.addHold x).both P := by
  unfold Lane.addHold
  split
  · exact h
  · exact hP.enterDown h

theorem takeCase (cfg : LegConfig) (pair : Option SwitchLane) (h : l.both P) : (l.takeCase cfg pair).both P := by
  unfold Lane.takeCase
  split
  · exact h
  · split
    · exact hP.goOn cfg (hP.enterDown h)
    · exact h

theorem pullBack (h : l.both P) : l.pullBack.both P := ⟨hP.abandoned _ h.1, hP.abandoned _ h.2⟩

theorem enterCarry (h : l.both P) : l.enterCarry.both P := ⟨hP.carries h.1, hP.carries h.2⟩

theorem softReset (cfg : LegConfig) (h : l.both P) : (l.softReset cfg).both P := by
  unfold Lane.softReset
  dsimp only
  split
  · exact ⟨hP.restarted _ h.1, hP.restarted _ h.2⟩
  · exact hP.goOn cfg ⟨hP.restarted _ (hP.idle h.1), hP.restarted _ (hP.idle h.2)⟩

theorem assertLine (h : l.both P) : l.assertLine.both P := by
  unfold Lane.assertLine
  split
  · exact h
  · exact hP.addHold _ h

/-- What an apply leaves of a lane (R17 to R20). -/
theorem applyLane (before t : State) (h : l.both P) : (applyLane before t i l).both P := by
  unfold Machine.applyLane
  split
  · exact h
  · dsimp only
    split
    · exact hP.enterOff h
    · exact hP.enable _ _ _ h
    · exact h
    · exact h

theorem move {f : Lane → Lane} (m : LaneMove s i f) (h : l.both P) : (f l).both P := by
  cases m with
  | drop _ => exact hP.trainFresh _ h
  | quiet _ => exact hP.trainFresh _ h
  | watchRetrain _ => exact hP.trainFresh _ h
  | applyCase _ => exact hP.takeCase _ _ h
  | retrain _ _ => exact hP.trainFresh (l := { l with fc := 0 }) _ h
  | hold p _ => exact hP.addHold _ h
  | release p _ => exact hP.goOn (l := { l with hold := l.hold.withMember p false }) _ h

/-! ## The lanes of the part -/

theorem moveLane {f : Lane → Lane} (h : ∀ i, (s.lane i).both P) (hf : (f (s.lane i)).both P) (j : LaneId) :
    ((s.moveLane i f).lane j).both P := by
  obtain ⟨-, hself, hother, -⟩ := moveLane_eq s i f
  by_cases e : j = i
  · rw [e, hself]
    exact hf
  · rw [hother j e]
    split
    · exact hP.pullBack (h j)
    · exact h j

theorem readyCheck (h : ∀ i, (s.lane i).both P) (j : LaneId) : ((s.readyCheck i).lane j).both P := by
  have ready : Lane.both P { s.lane i with state := .ready } := h i
  rcases readyCheck_eq s i with ⟨e, -⟩ | ⟨-, -, -, ⟨e, -⟩ | ⟨k, -, -, -, -, hi, hj, hn⟩⟩
  · rw [e]
    exact h j
  · rw [e]
    exact LaneInvariant.setLane h ready j
  · by_cases e : j = i
    · rw [e, hi]
      exact hP.enterCarry ready
    · by_cases ek : s.legOf j = some k
      · rw [hj j e ek]
        exact hP.enterCarry (h j)
      · rw [hn j ek]
        exact h j

/-- What an event on a side leaves is taken by its lane (R37, R43, R44, R47). -/
theorem applyOut {d : Side} {o : Out} (h : ∀ i, (s.lane i).both P) (ho : P o.half) (j : LaneId) :
    ((s.applyOut i d o).lane j).both P := by
  have took : ((s.lane i).took d o).both P := (h i).setHalf d ho
  rcases applyOut_eq s i d o with ⟨r, -, -, -, e⟩ | ⟨r, -, -, e⟩ | ⟨-, e⟩ <;> rw [e]
  · exact LaneInvariant.setLane h (hP.fail d r took) j
  · exact LaneInvariant.setLane h took j
  · refine hP.readyCheck (LaneInvariant.setLane h ?_) j
    unfold Lane.afterRestart
    split <;> exact took

theorem takeProfile (before : State) (h : ∀ i, (s.lane i).both P) (j : LaneId) :
    ((State.takeProfile before s).lane j).both P := by
  rw [takeProfile_lane]
  exact hP.applyLane before s (h j)

/-- Every change keeps the property at both sides of every lane. -/
theorem allLanes (s t : State) (h : ∀ i, (s.lane i).both P) (c : Change s t) : ∀ i, (t.lane i).both P := by
  have atReset : ∀ i, (State.reset.lane i).both P := fun i => by
    rw [show State.reset.lane i = Lane.reset from Tab.get_fill _ i]
    exact ⟨hP.reset, hP.reset⟩
  cases c with
  | blocks | loadFails => exact atReset
  | lines | watch | port | track => exact h
  | receiver r _ => cases r <;> exact h
  | load img _ _ =>
    rcases loadGood_cases { s with store := img } img with ⟨-, e⟩ | ⟨r, k, e⟩ <;> rw [e] <;>
      exact hP.takeProfile (s := { (s.installConfig img).setCurrent _ with store := img }) _ h
  | lineAsserted k => exact LaneInvariant.mapLeg (s := { s with legLines := _ }) h fun _ _ => hP.assertLine
  | lineReleased k =>
    exact LaneInvariant.mapLeg (s := { s with legLines := _ }) h fun i l =>
      hP.goOn (l := { l with hold := { l.hold with line := false, leg := false } }) (s.legConfig i)
  | side i d x e => exact LaneInvariant.setLane h ((h i).setHalf d (hP.change ((h i).half d) e))
  | event i d o e => exact hP.applyOut h (hP.event ((h i).half d) e)
  | fail i d r =>
    rw [failSegment_eq]
    split
    · exact LaneInvariant.setLane h (hP.fail d r (h i))
    · exact h
  | dropRequest i => exact LaneInvariant.setLane h (h i)
  | clear i => exact LaneInvariant.setLane h ((h i).map fun _ => hP.cleared)
  | move i f m => exact hP.moveLane h (hP.move m (h i))
  | config _ e => rw [e.frame]; exact h
  | apply =>
    rcases apply_cases s with ⟨r, k, e⟩ | ⟨-, -, e⟩ <;> rw [e]
    · exact h
    · exact hP.takeProfile (s := { s.setCurrent s.pendingProfile with applyOutcome := .done, failingLeg := 0 }) s h
  | softReset hp =>
    intro j
    rw [softReset_lane hp]
    exact hP.softReset _ (h j)

/-- Every step keeps the property at both sides of every lane. -/
theorem step {s t : State} (h : ∀ i, (s.lane i).both P) (hs : Machine.step s = .next t) : ∀ i, (t.lane i).both P :=
  step_keeps (P := fun s => ∀ i, (s.lane i).both P) (fun _ _ => id) hP.allLanes h hs

end SideInvariant

end Sys2Proof.Machine
end

section
/-! SUPPORT. The law of the setting and of the stack at every transmitter under every step (R61, R64). -/

namespace Sys2Proof.Machine

/-- An operation of a setting action keeps the laws (R72, R153). -/
theorem settingOp_lawful {a : Action} {args : ActionArgs} {op : TxUnit → TxUnit × ReplyOutcome} {u : TxUnit}
    (ha : settingOp a args = some op) (h : u.lawful = true) : (op u).1.lawful = true := by
  cases a with
  | save => cases ha; exact u.save_lawful h
  | restore => cases ha; exact u.back_lawful h
  | discard => cases ha; exact u.keep_lawful h
  | step => cases ha; exact stepOp_lawful args h
  | preset => cases ha; exact presetOp_lawful args h
  | _ => cases ha

/-! ## The transmitter through the events of a side -/

theorem ScanOnly.tx {h h' : Half} (e : ScanOnly h h') : h'.tx = h.tx := e.keeps.1

theorem SearchOnly.tx {h h' : Half} (e : SearchOnly h h') : h'.tx = h.tx := e.scanOnly.tx

theorem takeSession_tx (ctx : Ctx) (h : Half) (f : Frame) : (h.takeSession ctx f).tx = h.tx := by
  unfold Half.takeSession
  split
  · rfl
  · exact (startSearch_searchOnly ctx _).tx
  · split <;> rfl
  · split
    · rfl
    · exact (startSearch_searchOnly ctx _).tx

theorem takeSync_tx (h : Half) (f : Frame) : (h.takeSync f).tx = h.tx := by
  unfold Half.takeSync Half.synchronise
  split
  · dsimp only
    split <;> rfl
  · rfl

theorem takeReply_tx (ctx : Ctx) (h : Half) (f : Frame) : (h.takeReply ctx f).half.tx = h.tx := by
  unfold Half.takeReply
  split
  · exact (answered_searchOnly ctx _ _).tx
  · rfl

/-- A request is served by a lawful operation, or not at all (R88, R89). -/
theorem takeRequest_lawful {h : Half} (f : Frame) (hh : h.tx.lawful = true) : (h.takeRequest f).tx.lawful = true := by
  unfold Half.takeRequest
  split
  · exact hh
  · split <;> exact hh
  · split
    · exact hh
    · exact h.tx.serve_lawful _ hh

theorem takeReady_tx (h : Half) (f : Frame) : (h.takeReady f).tx = h.tx := by
  unfold Half.takeReady
  split <;> rfl

theorem tryDone_tx (h : Half) : h.tryDone.tx = h.tx := by
  unfold Half.tryDone
  split <;> rfl

/-- Of the fields of a good frame the request alone reaches the transmitter (R84). -/
theorem takeFrame_lawful {h : Half} (ctx : Ctx) (f : Frame) (hh : h.tx.lawful = true) :
    (h.takeFrame ctx f).half.tx.lawful = true := by
  have kept : (((h.takeSession ctx f).takeSync f).takeReply ctx f).half.tx = h.tx :=
    (takeReply_tx ctx _ f).trans ((takeSync_tx _ f).trans (takeSession_tx ctx h f))
  have served := takeRequest_lawful f (kept.symm ▸ hh)
  have after : (h.takeFrame ctx f).half.tx = ((((h.takeSession ctx f).takeSync f).takeReply ctx f).half.takeRequest f).tx :=
    (tryDone_tx _).trans (takeReady_tx _ f)
  exact after ▸ served

/-- Each rewriting of a side keeps the laws at its transmitter: it takes a lawful operation, loads a preset, or leaves the
transmitter alone. -/
theorem settingLaw_invariant : SideInvariant fun h => h.tx.lawful = true where
  reset := by decide
  change {ctx l h h'} hh e := by
    cases e with
    | startRelock =>
      unfold Half.startRelock
      split <;> exact hh
    | setting a args op ha _ => exact settingOp_lawful ha hh
    | measure _ _ _ => exact (startScan_scanOnly ctx h .action).tx ▸ hh
    | stopRelock | stopAcquire | stopTune | stopReply | badFrame | suspect => exact hh
  event {ctx l h o} hh e := by
    cases e with
    | lockLost => exact (scanLosesLock_scanOnly ctx h).tx ▸ hh
    | frame f _ _ => exact takeFrame_lawful ctx f hh
    | settled _ => exact (requestSearchScan_scanOnly ctx h.stopSettle).tx ▸ hh
    | watched _ => exact (requestWatchScan_scanOnly ctx h).tx ▸ hh
    | window n _ => exact (windowEnd_scanOnly ctx h n).tx ▸ hh
  fails _ hh := hh
  idle {h} hh := (setIdle_tx h).symm ▸ hh
  detect n _ := TxUnit.load_lawful n
  restarted n _ := TxUnit.load_lawful n
  loaded n _ := TxUnit.load_lawful n
  abandoned {h} o hh := by
    rw [abandon_eq]
    exact hh
  abandonedAll hh := hh
  carries hh := hh
  cleared hh := hh

/-- Settles O50: every rewriting of a side keeps the law at its transmitter. -/
theorem stepsKeepTheSettingLaw : Obligations.StepsKeepTheSettingLaw := fun _ _ hs h =>
  settingLaw_invariant.step hs h

end Sys2Proof.Machine
end

section
/-! SUPPORT. The operations of a Transmit Setting Unit, and the outcomes that an action makes of them (R61 to R72, R147). -/

namespace Sys2Proof.Machine

/-! ## Steps (R63, R65, R66) -/

theorem TxUnit.step_possible {u : TxUnit} {t : Tap} {d : Direction} (h : u.current.canStep t d = true) :
    u.step t d = (⟨u.current.moved t d, u.stack⟩, .applied) := if_pos h

theorem TxUnit.step_impossible {u : TxUnit} {t : Tap} {d : Direction} (h : ¬ u.current.canStep t d = true) :
    u.step t d = (u, .atLimit) := if_neg h

/-- A step is possible where the moved tap is in its range and leaves the main tap enough (R63). -/
theorem Setting.canStep_iff (x : Setting) (t : Tap) (d : Direction) :
    x.canStep t d = true ↔ (x.moved t d).tapInRange t = true ∧ 24 ≤ (x.moved t d).main := by
  simp [Setting.canStep]

theorem TxUnit.step_applied_iff (u : TxUnit) (t : Tap) (d : Direction) :
    (u.step t d).2 = .applied ↔ u.current.canStep t d = true := by
  by_cases h : u.current.canStep t d = true
  · simp [TxUnit.step_possible h, h]
  · simp [TxUnit.step_impossible h, h]

/-- TRY below the depth limit is a step that pushes the old setting (R66). -/
theorem TxUnit.trial_eq {u : TxUnit} (t : Tap) (d : Direction) (h : u.stack.length < 8) : u.trial t d =
    if u.current.canStep t d then (⟨u.current.moved t d, u.current :: u.stack⟩, .applied) else (u, .atLimit) :=
  if_neg (by simpa [stackLimit] using h)

theorem TxUnit.trial_full {u : TxUnit} (t : Tap) (d : Direction) (h : 8 ≤ u.stack.length) :
    u.trial t d = (u, .stackFull) := if_pos h

/-- An APPLIED TRY was a possible step, and what it leaves (R66). -/
theorem TxUnit.trial_applied {u : TxUnit} {t : Tap} {d : Direction} (h : (u.trial t d).2 = .applied) :
    u.current.canStep t d = true ∧ u.trial t d = (⟨u.current.moved t d, u.current :: u.stack⟩, .applied) := by
  by_cases full : 8 ≤ u.stack.length
  · rw [TxUnit.trial_full t d full] at h
    cases h
  · rw [TxUnit.trial_eq t d (by omega)] at h ⊢
    split at h
    · next possible => exact ⟨possible, if_pos possible⟩
    · cases h

/-! ## The stack (R64, R67 to R70) -/

theorem TxUnit.keep_depth (u : TxUnit) : u.keep.1.stack.length ≤ u.stack.length := by
  unfold TxUnit.keep
  split
  · exact le_refl _
  · next e => simp [e]

theorem TxUnit.back_depth (u : TxUnit) : u.back.1.stack.length ≤ u.stack.length := by
  unfold TxUnit.back
  split
  · exact le_refl _
  · next e => simp [e]

theorem TxUnit.step_stack (u : TxUnit) (t : Tap) (d : Direction) : (u.step t d).1.stack = u.stack := by
  unfold TxUnit.step
  split <;> rfl

/-- Of the exchange requests TRY alone adds an entry to the stack (R64). -/
theorem TxUnit.serve_deeper {u : TxUnit} {q : Request} (h : u.stack.length < (u.serve q).1.stack.length) :
    ∃ t d, q = .trial t d := by
  cases q with
  | trial t d => exact ⟨t, d, rfl⟩
  | step t d =>
    have same : (u.serve (.step t d)).1.stack = u.stack := u.step_stack t d
    rw [same] at h
    exact absurd h (lt_irrefl _)
  | keep => exact absurd h (not_lt.mpr u.keep_depth)
  | back => exact absurd h (not_lt.mpr u.back_depth)
  | preset n => exact absurd h (Nat.not_lt_zero _)

/-! ## The overall outcome (R147) -/

section Overall
variable {mask : BitVec 8} {outs : Tab 8 LaneOutcome}

theorem named_all_iff :
    (((Tab.indices 8).filter fun b => mask.getLsbD b.val).all fun b => decide (outs.get b = .done)) = true ↔
      ∀ b : Fin 8, mask.getLsbD b.val = true → outs.get b = .done := by
  simp only [List.all_eq_true, List.mem_filter, Tab.mem_indices, true_and, decide_eq_true_eq]

theorem named_any_iff :
    (((Tab.indices 8).filter fun b => mask.getLsbD b.val).any fun b => decide (outs.get b = .done)) = true ↔
      ∃ b : Fin 8, mask.getLsbD b.val = true ∧ outs.get b = .done := by
  simp only [List.any_eq_true, List.mem_filter, Tab.mem_indices, true_and, decide_eq_true_eq]

theorem overallOf_done (h : ∀ b : Fin 8, mask.getLsbD b.val = true → outs.get b = .done) : overallOf mask outs = .done :=
  if_pos (named_all_iff.mpr h)

theorem overallOf_partly (h : ∃ b : Fin 8, mask.getLsbD b.val = true ∧ outs.get b = .done)
    (hn : ∃ b : Fin 8, mask.getLsbD b.val = true ∧ outs.get b ≠ .done) : overallOf mask outs = .partly := by
  obtain ⟨b, hb, other⟩ := hn
  exact (if_neg fun c => other (named_all_iff.mp c b hb)).trans (if_pos (named_any_iff.mpr h))

theorem overallOf_refused (h : ∃ b : Fin 8, mask.getLsbD b.val = true)
    (hn : ∀ b : Fin 8, mask.getLsbD b.val = true → outs.get b ≠ .done) : overallOf mask outs = .refused := by
  obtain ⟨b, hb⟩ := h
  refine (if_neg fun c => hn b hb (named_all_iff.mp c b hb)).trans (if_neg fun c => ?_)
  obtain ⟨b, hb, done⟩ := named_any_iff.mp c
  exact hn b hb done

end Overall

/-! ## A step by the values it leads to (R63) -/

/-- A setting that a step would make is judged by the range of its moved tap and by its main tap (R63). -/
theorem TxUnit.step_judged {u : TxUnit} {t : Tap} {d : Direction} {x : Setting} {inRange : Prop}
    (hx : x = u.current.moved t d) (hr : x.tapInRange t = true ↔ inRange) :
    (inRange ∧ 24 ≤ (48 : Int) - x.pre.natAbs - x.post1.natAbs - x.post2.natAbs →
      u.step t d = (⟨x, u.stack⟩, .applied) ∧ x.main = 48 - x.pre.natAbs - x.post1.natAbs - x.post2.natAbs) ∧
    (¬ (inRange ∧ 24 ≤ (48 : Int) - x.pre.natAbs - x.post1.natAbs - x.post2.natAbs) → u.step t d = (u, .atLimit)) := by
  have possible := Setting.canStep_iff u.current t d
  rw [← hx, hr, Setting.main_eq] at possible
  refine ⟨fun h => ⟨?_, x.main_eq⟩, fun h => TxUnit.step_impossible (fun c => h (possible.mp c))⟩
  rw [TxUnit.step_possible (possible.mpr h), hx]

theorem directionDelta_eq (d : Direction) : directionDelta d = if d = .plus then 1 else -1 := by
  cases d <;> rfl

/-! ## The statement -/

/-- Settles O48, operation by operation. -/
theorem settingOperationsFollowTheirRules : Obligations.SettingOperationsFollowTheirRules := by
  refine ⟨fun u d => ?_, fun u hu => ⟨fun h => ?_, fun h => ?_, fun q => TxUnit.serve_deeper⟩, fun u t d h => ?_,
    fun u t d => ⟨fun h => ?_, fun h ha => ?_, fun h ha => ?_, rfl, rfl, rfl, rfl, fun _ => rfl⟩,
    fun u => ⟨fun h => ?_, fun top rest h => ?_, rfl, rfl, rfl, rfl⟩, by decide, by decide,
    fun mask outs => ⟨overallOf_done, overallOf_partly, overallOf_refused⟩⟩
  · rw [← directionDelta_eq]
    exact ⟨TxUnit.step_judged (x := { u.current with pre := _ }) rfl decide_eq_true_iff,
      TxUnit.step_judged (x := { u.current with post1 := _ }) rfl decide_eq_true_iff,
      TxUnit.step_judged (x := { u.current with post2 := _ }) rfl decide_eq_true_iff⟩
  · exact if_pos h.ge
  · have save : u.save = (⟨u.current, u.current :: u.stack⟩, .applied) := if_neg (by simp only [stackLimit]; omega)
    exact ⟨save, by rw [save]; rfl⟩
  · obtain ⟨possible, trial⟩ := TxUnit.trial_applied h
    rw [trial, TxUnit.step_possible possible]
    exact ⟨rfl, rfl, rfl⟩
  · exact TxUnit.trial_full t d h.ge
  · have possible := (u.step_applied_iff t d).mp ha
    rw [TxUnit.trial_eq t d h, if_pos possible, TxUnit.step_possible possible]
  · have impossible : ¬ u.current.canStep t d = true := fun c => by
      rw [TxUnit.step_possible c] at ha
      cases ha
    rw [TxUnit.trial_eq t d h, if_neg impossible]
  · unfold TxUnit.keep TxUnit.back
    rw [h]
    exact ⟨rfl, rfl⟩
  · unfold TxUnit.keep TxUnit.back
    rw [h]
    exact ⟨rfl, rfl⟩

end Sys2Proof.Machine
end

section
/-! SUPPORT. The setting actions at one lane, taken in the action's own event (R65 to R73, R153), and SAVE, RESTORE, DISCARD,
STEP and PRESET. -/

namespace Sys2Proof.Machine

/-! ## A setting operation at one lane (R153) -/

/-- The side that a leg port's writer names is closed to it (R153, R176). -/
abbrev sideClosed (s : State) (p : PortId) (v : ViewSide) : Prop := p ≠ 0 ∧ v = .far ∧ s.policy.far = false

/-- The lane with a setting operation taken at one transmitter (R72). -/
def Lane.operated (d : Side) (op : TxUnit → TxUnit × ReplyOutcome) (l : Lane) : Lane :=
  l.setHalf d { l.half d with tx := (op (l.half d).tx).1 }

/-- The outcome of that operation (R72). -/
def Lane.operationOutcome (d : Side) (op : TxUnit → TxUnit × ReplyOutcome) (l : Lane) : LaneOutcome :=
  settingOutcome (op (l.half d).tx).2

/-- The first test of R153 that a lane fails. -/
def Lane.testFailed (closed : Prop) [Decidable closed] (d : Side) (l : Lane) : Option LaneOutcome :=
  if l.state = .off then some .notMapped
  else if closed then some .refused
  else if (l.half d).seg.state = .exchange then some .busy
  else none

theorem settingTest_eq (s : State) (p : PortId) (i : LaneId) (v : ViewSide) :
    settingTest s p i v = (s.lane i).testFailed (sideClosed s p v) (sideOf p v) := rfl

section Tested
variable (closed : Prop) [Decidable closed] (d : Side) (op : TxUnit → TxUnit × ReplyOutcome)

/-- A setting action at one lane. -/
def Lane.tested (l : Lane) : Lane := if (l.testFailed closed d).isNone then l.operated d op else l

/-- Its outcome. -/
def Lane.testedOutcome (l : Lane) : LaneOutcome := (l.testFailed closed d).getD (l.operationOutcome d op)

variable {closed d op} {l : Lane}

theorem Lane.testFailed_none_iff : l.testFailed closed d = none ↔
    l.state ≠ .off ∧ ¬ closed ∧ (l.half d).seg.state ≠ .exchange := by
  unfold Lane.testFailed
  split
  · next h => exact iff_of_false nofun fun c => c.1 h
  · next ho =>
    split
    · next h => exact iff_of_false nofun fun c => c.2.1 h
    · next hc =>
      split
      · next h => exact iff_of_false nofun fun c => c.2.2 h
      · next hx => exact iff_of_true rfl ⟨ho, hc, hx⟩

theorem Lane.tested_failed {o : LaneOutcome} (h : l.testFailed closed d = some o) :
    l.testedOutcome closed d op = o ∧ l.tested closed d op = l := by
  unfold Lane.testedOutcome Lane.tested
  rw [h]
  exact ⟨rfl, rfl⟩

theorem Lane.tested_passed (h : l.testFailed closed d = none) :
    l.testedOutcome closed d op = l.operationOutcome d op ∧ l.tested closed d op = l.operated d op := by
  unfold Lane.testedOutcome Lane.tested
  rw [h]
  exact ⟨rfl, rfl⟩

theorem Lane.operated_state : (l.operated d op).state = l.state := Lane.setHalf_state l d _

theorem Lane.tested_state : (l.tested closed d op).state = l.state := by
  unfold Lane.tested
  split
  · exact Lane.operated_state
  · rfl

/-- A pull-back changes nothing that a setting action looks at (R56). -/
theorem Lane.testedOutcome_pullBack (hc : l.state = .carry) :
    l.pullBack.testedOutcome closed d op = l.testedOutcome closed d op := by
  have half : l.pullBack.half d = (l.half d).abandon .watch := Lane.half_mapHalves _ _ d
  have tx : (l.pullBack.half d).tx = (l.half d).tx := by rw [half, abandon_eq]
  unfold Lane.testedOutcome Lane.testFailed Lane.operationOutcome
  rw [tx, half, abandon_seg, Lane.pullBack_state, hc]
  rfl

end Tested

/-- A setting operation at one transmitter moves its lane alone. -/
theorem settingApply_eq (s : State) (p : PortId) (i : LaneId) (v : ViewSide) (op : TxUnit → TxUnit × ReplyOutcome) :
    settingApply s p i v op =
      (s.moveLane i (Lane.operated (sideOf p v) op), (s.lane i).operationOutcome (sideOf p v) op) :=
  congrArg (·, _) (moveLane_alone fun c => c.2 (Lane.operated_state.trans c.1)).symm

theorem settingLane_eq (s : State) (p : PortId) (i : LaneId) (v : ViewSide) (op : TxUnit → TxUnit × ReplyOutcome) :
    settingLane s p i v op = (s.moveLane i (Lane.tested (sideClosed s p v) (sideOf p v) op),
      (s.lane i).testedOutcome (sideClosed s p v) (sideOf p v) op) := by
  unfold settingLane
  rw [settingTest_eq]
  cases h : (s.lane i).testFailed (sideClosed s p v) (sideOf p v) with
  | some o =>
    obtain ⟨outcome, lane⟩ := Lane.tested_failed (op := op) h
    rw [moveLane_same lane, outcome]
  | none =>
    obtain ⟨outcome, lane⟩ := Lane.tested_passed (op := op) h
    rw [moveLane_congr lane, outcome]
    exact settingApply_eq s p i v op

/-! ## A setting action at the lanes it names -/

section SettingAction
variable {s : State} {p : PortId} {a : Action} {args : ActionArgs} {op : TxUnit → TxUnit × ReplyOutcome}

theorem laneOperation_setting (ha : settingOp a args = some op) (t : State) (i : LaneId) :
    laneOperation t p a args i = settingLane t p i args.side op := by
  cases a with
  | save | restore | discard | step | preset => cases ha; rfl
  | _ => cases ha

theorem settingOp_usesMask (ha : settingOp a args = some op) : a.usesMask = true := by
  cases a with
  | save | restore | discard | step | preset => rfl
  | _ => cases ha

theorem setting_rule (ha : settingOp a args = some op) :
    LaneRule s p a args (fun _ => Lane.tested (sideClosed s p args.side) (sideOf p args.side) op)
      (Lane.testedOutcome (sideClosed s p args.side) (sideOf p args.side) op) where
  takes t ht i := by
    obtain ⟨-, -, -, -, -, -, policy, -⟩ := ht.keeps
    rw [laneOperation_setting ha, settingLane_eq]
    unfold sideClosed
    rw [policy]
  pulled _ hc := Lane.testedOutcome_pullBack hc

/-- A setting action that reaches its lanes in its own event, at each named lane by the tests of R153 in their order. -/
theorem issueSetting (ha : settingOp a args = some op) (hargs : argumentsOk a args = true) (once : viewOnce s p)
    (hr : actionReady s p a.code) :
    let t := issueAction s p a args 0
    actionReported s t p a.code args ∧ (t.offLanes).offAction p = (s.offLanes).offAction p ∧ t.legState = s.legState ∧
      (∀ j, (∀ b, ¬ names s p args b j) → t.lane j = s.lane j) ∧
      ∀ b i, names s p args b i →
        let d := sideOf p args.side
        let h := s.half i d
        let closed := sideClosed s p args.side
        ((s.lane i).state = .off → (t.port p).action.perLane.get b = .notMapped ∧ t.lane i = s.lane i) ∧
        ((s.lane i).state ≠ .off → closed → (t.port p).action.perLane.get b = .refused ∧ t.lane i = s.lane i) ∧
        ((s.lane i).state ≠ .off → ¬ closed → h.seg.state = .exchange →
          (t.port p).action.perLane.get b = .busy ∧ t.lane i = s.lane i) ∧
        ((s.lane i).state ≠ .off → ¬ closed → h.seg.state ≠ .exchange →
          (t.port p).action.perLane.get b = settingOutcome (op h.tx).2 ∧
          t.lane i = (s.lane i).setHalf d { h with tx := (op h.tx).1 }) := by
  obtain ⟨reported, frame, leg, others, named⟩ := issueLanes_staying (setting_rule ha)
    (fun _ _ hc => Lane.tested_state.trans hc) once hr (settingOp_usesMask ha) hargs
  refine ⟨reported, frame, leg, others, fun b i hb => ?_⟩
  obtain ⟨outcome, lane⟩ := named b i hb
  have failed : ∀ {o}, (s.lane i).testFailed (sideClosed s p args.side) (sideOf p args.side) = some o →
      ((issueAction s p a args 0).port p).action.perLane.get b = o ∧ (issueAction s p a args 0).lane i = s.lane i :=
    fun h => ⟨outcome.trans (Lane.tested_failed h).1, lane.trans (Lane.tested_failed h).2⟩
  refine ⟨fun ho => failed (if_pos ho), fun ho hc => failed ((if_neg ho).trans (if_pos hc)),
    fun ho hc hx => failed ((if_neg ho).trans ((if_neg hc).trans (if_pos hx))), fun ho hc hx => ?_⟩
  have passed := Lane.tested_passed (op := op) (Lane.testFailed_none_iff.mpr ⟨ho, hc, hx⟩)
  exact ⟨outcome.trans passed.1, lane.trans passed.2⟩

theorem stepOp_eq {t : Tap} (h : tapOfCode args.tap.val = some t) : stepOp args = fun u => u.step t args.direction := by
  funext u
  unfold stepOp
  rw [h]

theorem presetOfCode_eq {n : Fin 4} (h : args.preset.val = n.val) : presetOfCode args.preset.val = some n := by
  rw [h]
  exact dif_pos n.isLt

theorem presetOp_eq {n : Fin 4} (h : args.preset.val = n.val) : presetOp args = fun u => u.preset n := by
  funext u
  unfold presetOp
  rw [presetOfCode_eq h]

end SettingAction

/-- Settles O42, by the rule of a setting action at one lane. -/
theorem settingActionsReachTheTransmitter : Obligations.SettingActionsReachTheTransmitter := by
  intro p args s t₀ n took once
  refine ⟨fun hr => ⟨_, rfl, issueSetting (a := .save) rfl rfl once hr⟩,
    fun hr => ⟨_, rfl, issueSetting (a := .restore) rfl rfl once hr⟩,
    fun hr => ⟨_, rfl, issueSetting (a := .discard) rfl rfl once hr⟩,
    fun hr ht => ⟨_, rfl, issueSetting (a := .step) (congrArg some (stepOp_eq ht)) ?_ once hr⟩,
    fun hr hn => ⟨_, rfl, issueSetting (a := .preset) (congrArg some (presetOp_eq hn)) ?_ once hr⟩⟩
  · exact congrArg Option.isSome ht
  · exact congrArg Option.isSome (presetOfCode_eq hn)

end Sys2Proof.Machine
end

section
/-! SUPPORT. Actions whose lanes take their operation later (R73, R148; log 10): what is handed out, and what
ACTION_LANE_OPERATION takes, code by code (R149 to R154). -/

namespace Sys2Proof.Machine

/-! ## Handing operations out (R148, R153) -/

section HandOut
variable {s : State} {p : PortId} {a : Action} {args : ActionArgs}

/-- A named lane is handed its operation: it has no outcome already when the action is taken (R73, R153). -/
def handsOut (s : State) (p : PortId) (a : Action) (args : ActionArgs) (op : HandedOp) : Prop :=
  names s p args op.bit op.lane ∧ earlyOutcome s p a args op.lane = none

/-- Port `x` is what port `y` becomes once the bits of a list have been gone through. -/
structure HandedOut (s : State) (p : PortId) (a : Action) (args : ActionArgs) (bs : List (Fin 8)) (y x : Port) : Prop where
  sameCode : x.action.code = y.action.code
  sameArgs : x.action.args = y.action.args
  ops : ∀ op, op ∈ x.handed ↔ op ∈ y.handed ∨ op.bit ∈ bs ∧ handsOut s p a args op

theorem HandedOut.nil (y : Port) : HandedOut s p a args [] y y := ⟨rfl, rfl, fun _ => by simp⟩

theorem HandedOut.cons {b : Fin 8} {bs : List (Fin 8)} {x y z : Port} (h : HandedOut s p a args [b] y x)
    (h' : HandedOut s p a args bs x z) : HandedOut s p a args (b :: bs) y z :=
  ⟨h'.sameCode.trans h.sameCode, h'.sameArgs.trans h.sameArgs, fun op => by
    rw [h'.ops, h.ops, or_assoc, ← or_and_right, ← List.mem_append]
    rfl⟩

/-- A bit whose lane is handed nothing leaves the operations as they are. -/
theorem HandedOut.none {b : Fin 8} {x y : Port} (hc : x.action.code = y.action.code) (ha : x.action.args = y.action.args)
    (hh : x.handed = y.handed) (hn : ∀ i, names s p args b i → earlyOutcome s p a args i ≠ none) :
    HandedOut s p a args [b] y x :=
  ⟨hc, ha, fun op => by
    rw [hh]
    refine (or_iff_left ?_).symm
    rintro ⟨hb, named, early⟩
    rw [List.mem_singleton.mp hb] at named
    exact hn _ named early⟩

/-- One bit of an action whose lanes all take their operation later. -/
theorem takeLane_later {y : Port} (hy : y.action.args = args) (b : Fin 8) :
    ∃ x, takeLane p a 255 (s.setPort p y) b = s.setPort p x ∧ HandedOut s p a args [b] y x := by
  have later : (255 : BitVec 8).getLsbD b.val = true := by revert b; decide
  have written : ∀ o, ∃ x, (s.setPort p y).setOutcome p b o = s.setPort p x ∧ x.action.code = y.action.code ∧
      x.action.args = y.action.args ∧ x.handed = y.handed := fun o => by
    refine ⟨{ y with action := { y.action with perLane := y.action.perLane.set b o } }, ?_, rfl, rfl, rfl⟩
    unfold State.setOutcome State.setAction
    rw [setPort_setPort, State.port_setPort_self]
  unfold takeLane
  dsimp only
  rw [State.port_setPort_self, hy, show viewLane (s.setPort p y) p b = viewLane s p b from rfl]
  simp only [later, if_true]
  split
  · next hm => exact ⟨y, rfl, .none rfl rfl rfl fun i h => absurd h.1 (by rw [hm]; nofun)⟩
  · next hm =>
    split
    · next hv =>
      obtain ⟨x, e, hc, ha, hh⟩ := written .notMapped
      exact ⟨x, e, .none hc ha hh fun i h => absurd h.2 (by rw [hv]; nofun)⟩
    · next i hv =>
      have lane : ∀ {j}, names s p args b j → j = i := fun h => Option.some.inj (h.2.symm.trans hv)
      rw [show earlyOutcome (s.setPort p y) p a args i = earlyOutcome s p a args i from rfl]
      split
      · next o early =>
        obtain ⟨x, e, hc, ha, hh⟩ := written o
        exact ⟨x, e, .none hc ha hh fun j h => by rw [lane h, early]; nofun⟩
      · next early =>
        refine ⟨{ y with handed := y.handed ++ [⟨b, i⟩] }, setPort_setPort .., rfl, rfl, fun op => ?_⟩
        rw [List.mem_append, List.mem_singleton, List.mem_singleton]
        refine or_congr_right ⟨fun e => ?_, fun ⟨hb, named, _⟩ => ?_⟩
        · rw [e]
          exact ⟨rfl, ⟨by simpa using hm, hv⟩, early⟩
        · rw [hb] at named
          rw [← hb, ← lane named]

theorem foldl_takeLane_later (bs : List (Fin 8)) {y : Port} (hy : y.action.args = args) :
    ∃ x, bs.foldl (takeLane p a 255) (s.setPort p y) = s.setPort p x ∧ HandedOut s p a args bs y x := by
  induction bs generalizing y with
  | nil => exact ⟨y, rfl, .nil y⟩
  | cons b bs ih =>
    obtain ⟨x, e, one⟩ := takeLane_later (s := s) (p := p) (a := a) hy b
    obtain ⟨z, e', rest⟩ := ih (one.sameArgs.trans hy)
    exact ⟨z, by rw [List.foldl_cons, e, e'], one.cons rest⟩

/-- The end of an action's write stop writes the overall outcome and the port status alone (R147, R180). -/
theorem closeAction_setStatus (s : State) (p : PortId) (x : Port) (f : PortStatus → PortStatus) :
    ∃ z, ((s.setPort p x).closeAction p).setStatus p f = s.setPort p z ∧ z.action.code = x.action.code ∧
      z.action.args = x.action.args ∧ z.handed = x.handed := by
  unfold State.closeAction State.setStatus State.setAction
  rw [State.port_setPort_self]
  split
  · rw [State.port_setPort_self, setPort_setPort, setPort_setPort]
    exact ⟨_, rfl, rfl, rfl, rfl⟩
  · rw [State.port_setPort_self, setPort_setPort]
    exact ⟨_, rfl, rfl, rfl, rfl⟩

/-- The request fields are stored and the per-lane outcomes cleared (R143, R147). -/
theorem requested_readied (s : State) (p : PortId) (code : Byte) (args : ActionArgs) :
    ((s.setAction p fun x => x.requested code args).setAction p fun x => { x with perLane := Tab.fill 8 .none }) =
      s.readied p code args := by
  unfold State.setAction State.readied
  rw [setPort_setPort, State.port_setPort_self]
  rfl

/-- An action whose named lanes all take their operation later moves no lane and hands the operations out (R148). -/
theorem issueLater (hr : actionReady s p a.code) (ha : a.usesMask = true) (hargs : argumentsOk a args = true) :
    let t := issueAction s p a args 255
    t.lanes = s.lanes ∧ t.legState = s.legState ∧ (t.port p).action.code = byte a.code ∧ (t.port p).action.args = args ∧
      ∀ b i, (⟨b, i⟩ : HandedOp) ∈ (t.port p).handed ↔ names s p args b i ∧ earlyOutcome s p a args i = none := by
  have hout : (s.port p).handed = [] := hr.2.1
  obtain ⟨y, ready, ycode, yargs, yout⟩ : ∃ y, s.readied p (byte a.code) args = s.setPort p y ∧
      y.action.code = byte a.code ∧ y.action.args = args ∧ y.handed = [] := ⟨_, rfl, rfl, rfl, hout⟩
  obtain ⟨x, folded, out⟩ := foldl_takeLane_later (s := s) (p := p) (a := a) (Tab.indices 8) yargs
  obtain ⟨z, closed, zcode, zargs, zout⟩ := closeAction_setStatus s p x fun st => st.afterWrite 0x30 ⟨2, 0, 0, none⟩
  dsimp only
  rw [issueAction_eq a args 255 hr hargs]
  unfold State.runAction
  dsimp only
  rw [if_pos ha, requested_readied, ready, folded, closed]
  generalize some (p, s.setAction p fun x => x.requested (byte a.code) args) = own
  have port := (track_eq s own (s.setPort p z)).2 p
  rw [State.port_setPort_self] at port
  rw [port]
  refine ⟨rfl, rfl, zcode.trans (out.sameCode.trans ycode), zargs.trans (out.sameArgs.trans yargs), fun b i => ?_⟩
  dsimp only
  rw [zout, out.ops, yout]
  simp [handsOut]

/-- Lanes are handed the operation of an action without tests of its own. -/
theorem earlyOutcome_none (ha : settingOp a args = none) (i : LaneId) : earlyOutcome s p a args i = none := by
  unfold earlyOutcome
  rw [ha]

/-- Lanes that pass the tests of R153 are handed the operation of a setting action (R73). -/
theorem earlyOutcome_setting {op : TxUnit → TxUnit × ReplyOutcome} (ha : settingOp a args = some op) (i : LaneId) :
    earlyOutcome s p a args i = none ↔ (s.lane i).state ≠ .off ∧ ¬ sideClosed s p args.side ∧
      (s.half i (sideOf p args.side)).seg.state ≠ .exchange := by
  unfold earlyOutcome
  rw [ha]
  exact Lane.testFailed_none_iff

end HandOut

/-! ## Taking an operation that was handed out (R148) -/

/-- Port `x` once an operation has been taken with an outcome (R147, R148). -/
def Port.tookOperation (x : Port) (op : HandedOp) (o : LaneOutcome) : Port :=
  { x with
    handed := x.handed.filter fun y => decide (y ≠ op)
    action := { x.action with
      perLane := x.action.perLane.set op.bit o
      overall := if (x.handed.filter fun y => decide (y ≠ op)) = [] then
          overallOf x.action.args.mask (x.action.perLane.set op.bit o)
        else x.action.overall } }

/-- What a lane that takes its operation by a rule, with an outcome, leaves of the part. -/
structure OperationTaken (s t : State) (p : PortId) (op : HandedOp) (f : Lane → Lane) (o : LaneOutcome) : Prop where
  taken : handedTaken s t p op o
  lane : ∀ j, t.lane j = (s.moveLane op.lane f).lane j
  leg : t.legState = (s.moveLane op.lane f).legState

/-- The state in which a lane takes an operation: it is out no more. -/
def State.withdrawn (s : State) (p : PortId) (op : HandedOp) : State :=
  s.setPort p { s.port p with handed := (s.port p).handed.filter fun y => decide (y ≠ op) }

theorem withdrawn_actionOnly (s : State) (p : PortId) (op : HandedOp) : ActionOnly p s (s.withdrawn p op) :=
  ActionOnly.setPort p s _ _

section Taken
variable {s t : State} {p : PortId} {op : HandedOp} {a : Action} {f : Lane → Lane} {o : LaneOutcome}

theorem takeHanded_eq (hc : actionOfCode (s.port p).action.code.toNat = some a)
    (hop : handedOperation (s.withdrawn p op) p a (s.port p).action.args op.lane =
      ((s.withdrawn p op).moveLane op.lane f, o)) :
    s.takeHanded p op = (s.moveLane op.lane f).setPort p ((s.port p).tookOperation op o) := by
  unfold State.takeHanded
  dsimp only
  rw [State.port_setPort_self]
  dsimp only
  rw [hc]
  dsimp only
  rw [show s.setPort p _ = s.withdrawn p op from rfl, hop]
  dsimp only
  rw [State.withdrawn, moveLane_setPort]
  generalize s.moveLane op.lane f = u
  unfold State.closeAction State.setOutcome State.setAction Port.tookOperation
  rw [State.port_setPort_self, setPort_setPort, State.port_setPort_self]
  dsimp only
  by_cases e : ((s.port p).handed.filter fun y => decide (y ≠ op)) = []
  · rw [e, if_pos rfl]
    exact setPort_setPort ..
  · rw [if_neg e]
    split
    · next e' => exact absurd e' e
    · exact setPort_setPort ..

/-- ACTION_LANE_OPERATION with an operation out at its mask bit (R148). -/
theorem operationTaken (hc : actionOfCode (s.port p).action.code.toNat = some a)
    (hop : handedOperation (s.withdrawn p op) p a (s.port p).action.args op.lane =
      ((s.withdrawn p op).moveLane op.lane f, o)) :
    OperationTaken s (engineEvent s (s.takeHanded p op)) p op f o := by
  have only := (moveLane_eq s op.lane f).1
  rw [takeHanded_eq hc hop]
  obtain ⟨frame, bitmaps⟩ := track_eq s none ((s.moveLane op.lane f).setPort p ((s.port p).tookOperation op o))
  rw [← engineEvent] at frame bitmaps
  have lane := engineEvent_lane s ((s.moveLane op.lane f).setPort p ((s.port p).tookOperation op o))
  generalize engineEvent s _ = t at frame bitmaps lane ⊢
  have port : t.port p = { (s.port p).tookOperation op o with bitmap := (t.port p).bitmap } :=
    (bitmaps p).trans (by rw [State.port_setPort_self])
  have other : ∀ q, q ≠ p → t.port q = { s.port q with bitmap := (t.port q).bitmap } := fun q hq =>
    (bitmaps q).trans (by rw [State.port_setPort_ne _ _ hq, only.port])
  refine ⟨⟨by rw [port]; rfl, by rw [port]; rfl, by rw [port]; rfl, ?_⟩, lane, by rw [frame]; rfl⟩
  refine offAction_congr (a := { t with lanes := Tab.fill 8 .reset, legState := Tab.fill 4 .disabled })
    (b := { s with lanes := Tab.fill 8 .reset, legState := Tab.fill 4 .disabled }) ?_ (fun q hq => ⟨_, other q hq⟩)
    ⟨_, _, _, _, port⟩
  rw [frame, only]
  rfl

namespace OperationTaken

theorem self (h : OperationTaken s t p op f o) : t.lane op.lane = f (s.lane op.lane) :=
  (h.lane _).trans (moveLane_eq s op.lane f).2.1

/-- A lane that stays in CARRY, or was not there, moves alone (R56). -/
theorem alone (h : OperationTaken s t p op f o)
    (hf : ¬ ((s.lane op.lane).state = .carry ∧ (f (s.lane op.lane)).state ≠ .carry)) : onlyLane s t op.lane := by
  have move := moveLane_alone hf
  exact ⟨fun j hj => (h.lane j).trans (by rw [move, State.lane_setLane_ne _ _ hj]), h.leg.trans (by rw [move]; rfl)⟩

/-- A lane that the operation leaves as it stands. -/
theorem stays (h : OperationTaken s t p op f o) (hf : f (s.lane op.lane) = s.lane op.lane) :
    onlyLane s t op.lane ∧ t.lane op.lane = s.lane op.lane :=
  ⟨h.alone fun c => c.2 ((congrArg Lane.state hf).trans c.1), h.self.trans hf⟩

/-- A lane that leaves CARRY pulls its leg back (R56). -/
theorem leaves (h : OperationTaken s t p op f o) (hf : (f (s.lane op.lane)).state ≠ .carry) :
    ((s.lane op.lane).state ≠ .carry → onlyLane s t op.lane) ∧
      ∀ k, (s.lane op.lane).state = .carry → s.legOf op.lane = some k → pulledBack s t op.lane k := by
  refine ⟨fun hc => h.alone fun c => hc c.1, fun k hc hk => ?_⟩
  obtain ⟨pulled, others, leg⟩ := moveLane_pulledBack hc hf hk
  exact ⟨fun j hj hl hs => (h.lane j).trans (pulled j hj hl hs), fun j hj hn => (h.lane j).trans (others j hj hn),
    h.leg.trans leg⟩

end OperationTaken

theorem moveLane_id (s : State) (i : LaneId) : s.moveLane i id = s := moveLane_same rfl

/-- An operation without tests of its own is that of the action's event (R148). -/
theorem taken_byRule {g : LaneId → Lane → Lane} {out : Lane → LaneOutcome}
    (rule : LaneRule s p a (s.port p).action.args g out) (ha : settingOp a (s.port p).action.args = none)
    (hc : actionOfCode (s.port p).action.code.toNat = some a) (ho : out (s.lane op.lane) = o) :
    OperationTaken s (engineEvent s (s.takeHanded p op)) p op (g op.lane) o := by
  refine operationTaken hc (ho ▸ ?_)
  unfold handedOperation
  rw [ha]
  exact rule.takes _ (withdrawn_actionOnly s p op) op.lane

/-- A setting operation is carried out at a lane that is not OFF, whatever its segment does by then (R73; log 31). -/
theorem taken_setting {y : TxUnit → TxUnit × ReplyOutcome} (ha : settingOp a (s.port p).action.args = some y)
    (hc : actionOfCode (s.port p).action.code.toNat = some a) (ho : (s.lane op.lane).state ≠ .off) :
    OperationTaken s (engineEvent s (s.takeHanded p op)) p op (Lane.operated (sideOf p (s.port p).action.args.side) y)
      ((s.lane op.lane).operationOutcome (sideOf p (s.port p).action.args.side) y) := by
  refine operationTaken hc ?_
  unfold handedOperation
  rw [ha]
  exact (if_neg ho).trans (settingApply_eq _ _ _ _ _)

theorem measureLane_busy {i : LaneId} {d : Side} (ho : (s.lane i).state ≠ .off)
    (h : (s.lane i).state = .down ∨ (s.half i d).scan.inFlight ≠ none) : measureLane s i d = (s, .busy) := by
  unfold measureLane
  split
  · next off => exact absurd off ho
  · rfl
  · next hd =>
    split
    · rfl
    · next free => exact (h.elim hd (fun busy => busy free)).elim

/-- MEASURE starts an ACTION scan at a free receiver, which without lock ends at once (R104, R108, R154). -/
theorem startScan_action {h : Half} (ctx : Ctx) (hn : h.scan.inFlight = none) : (h.startScan ctx .action).half =
    { h with scan :=
      (if ctx.locked then { h.scan with inFlight := some ⟨.action, 1, []⟩ }
      else { h.scan with
        last := ⟨some .action, [0, 0, 0, 0, 0, 0], none⟩, count := satInc counterMax h.scan.count }) } := by
  unfold Half.startScan
  split
  · rfl
  · exact congrArg (fun x => { h with scan := { h.scan with
      inFlight := x, last := Reading.noReading .action, count := satInc counterMax h.scan.count } }) hn.symm

/-- The lane with an ACTION scan started at one receiver (R104, R154). -/
def State.measured (s : State) (i : LaneId) (d : Side) (l : Lane) : Lane :=
  l.setHalf d ((s.half i d).startScan (s.ctx i d) .action).half

theorem measureLane_free {i : LaneId} {d : Side} (ho : (s.lane i).state ≠ .off) (hd : (s.lane i).state ≠ .down)
    (hn : (s.half i d).scan.inFlight = none) : measureLane s i d = (s.moveLane i (s.measured i d), .done) := by
  have free : ((s.lane i).half d).scan.inFlight = none := hn
  have alone : s.moveLane i (s.measured i d) = s.setLane i (s.measured i d (s.lane i)) :=
    moveLane_alone fun c => c.2 ((Lane.setHalf_state _ _ _).trans c.1)
  unfold measureLane
  split
  · next off => exact absurd off ho
  · next down => exact absurd down hd
  · rw [free, alone]
    rfl

/-- A lane that has gone to OFF by then is NOT_MAPPED, whatever the action (R146; log 31). -/
theorem handedOperation_off {args : ActionArgs} {i : LaneId} (ha : a.usesMask = true) (ho : (s.lane i).state = .off) :
    handedOperation s p a args i = (s, .notMapped) := by
  unfold handedOperation
  cases a with
  | save | restore | discard | step | preset => exact if_pos ho
  | retrain =>
    show retrainLane s i = _
    unfold retrainLane
    rw [ho]
  | hold =>
    show holdLane s p i = _
    unfold holdLane
    rw [ho]
  | release =>
    show releaseLane s p i = _
    unfold releaseLane
    rw [ho]
  | measure =>
    show measureLane s i _ = _
    unfold measureLane
    rw [ho]
  | clearCounters =>
    show clearLane s i = _
    unfold clearLane
    rw [ho]
  | freeze | thaw | applyProfile | softReset => cases ha

theorem taken_off (ha : a.usesMask = true) (hc : actionOfCode (s.port p).action.code.toNat = some a)
    (ho : (s.lane op.lane).state = .off) :
    OperationTaken s (engineEvent s (s.takeHanded p op)) p op id .notMapped :=
  operationTaken hc ((handedOperation_off (s := s.withdrawn p op) ha ho).trans (congrArg (·, _) (moveLane_id _ _).symm))

/-- MEASURE at a lane that is neither OFF nor DOWN and whose receiver is free, taken later (R154). -/
theorem taken_measure (hc : (s.port p).action.code = 4) (ho : (s.lane op.lane).state ≠ .off)
    (hd : (s.lane op.lane).state ≠ .down)
    (hn : (s.half op.lane (sideOf p (s.port p).action.args.side)).scan.inFlight = none) :
    OperationTaken s (engineEvent s (s.takeHanded p op)) p op
      (s.measured op.lane (sideOf p (s.port p).action.args.side)) .done :=
  operationTaken (a := .measure) (by rw [hc]; rfl) (measureLane_free (s := s.withdrawn p op) ho hd hn)

theorem taken_measure_busy (hc : (s.port p).action.code = 4) (ho : (s.lane op.lane).state ≠ .off)
    (h : (s.lane op.lane).state = .down ∨
      (s.half op.lane (sideOf p (s.port p).action.args.side)).scan.inFlight ≠ none) :
    OperationTaken s (engineEvent s (s.takeHanded p op)) p op id .busy :=
  operationTaken (a := .measure) (by rw [hc]; rfl)
    ((measureLane_busy (s := s.withdrawn p op) ho h).trans (congrArg (·, _) (moveLane_id _ _).symm))

end Taken

/-! ## The statement -/

theorem actionLaneOperation_eq {s : State} {p : PortId} {b : Fin 8} {op : HandedOp} (h : s.handedAt p b = some op) :
    exec (.actionLaneOperation p b) s = .next (engineEvent s (s.takeHanded p op)) := by
  show execActionLaneOperation p b s = _
  unfold execActionLaneOperation
  rw [h]

theorem handedAt_bit {s : State} {p : PortId} {b : Fin 8} {op : HandedOp} (h : s.handedAt p b = some op) : op.bit = b := by
  simpa using List.find?_some h

/-- The codes 1 to 10 are those of the actions that name lanes (R147). -/
theorem actionOfCode_usesMask {n : Nat} (h : 1 ≤ n) (h' : n ≤ 10) : ∃ a, actionOfCode n = some a ∧ a.usesMask = true := by
  interval_cases n <;> exact ⟨_, rfl, rfl⟩

/-- An action of the ten whose named lanes all take their operation later. -/
theorem handsOut_issued {s : State} {p : PortId} {a : Action} {args : ActionArgs} {passes : LaneId → Prop}
    (ha : a.usesMask = true) (hargs : argumentsOk a args = true)
    (hp : ∀ i, earlyOutcome s p a args i = none ↔ passes i) (hr : actionReady s p a.code) :
    ∃ t, Host.Outcome.next (issueAction s p a args 255) = (.next t : Host.Outcome State Fault Refusal) ∧
      t.lanes = s.lanes ∧ t.legState = s.legState ∧ (t.port p).action.code = byte a.code ∧ (t.port p).action.args = args ∧
      ∀ (b : Fin 8) (i : LaneId), (⟨b, i⟩ : HandedOp) ∈ (t.port p).handed ↔ names s p args b i ∧ passes i := by
  obtain ⟨lanes, leg, code, argsKept, ops⟩ := issueLater hr ha hargs
  exact ⟨_, rfl, lanes, leg, code, argsKept, fun b i => (ops b i).trans (and_congr_right fun _ => hp i)⟩

/-- Settles O27: what is handed out, and each code by its rule at one lane. -/
theorem deferredOperationsAreTaken : Obligations.DeferredOperationsAreTaken := by
  refine ⟨fun p args s => ?_, fun s p b op h => ⟨_, actionLaneOperation_eq h, handedAt_bit h, ?_⟩⟩
  · have tap : ∀ t : Fin 4, t ≠ 3 → (tapOfCode t.val).isSome = true := by decide
    have preset : ∀ n : Fin 8, n.val < 4 → (presetOfCode n.val).isSome = true := by decide
    have plain : ∀ {a : Action}, settingOp a args = none → ∀ i, earlyOutcome s p a args i = none ↔ True := fun ha i =>
      iff_true_intro (earlyOutcome_none ha i)
    exact ⟨handsOut_issued (a := .retrain) rfl rfl (plain rfl), handsOut_issued (a := .hold) rfl rfl (plain rfl),
      handsOut_issued (a := .release) rfl rfl (plain rfl), handsOut_issued (a := .measure) rfl rfl (plain rfl),
      handsOut_issued (a := .save) rfl rfl (earlyOutcome_setting rfl),
      handsOut_issued (a := .restore) rfl rfl (earlyOutcome_setting rfl),
      handsOut_issued (a := .discard) rfl rfl (earlyOutcome_setting rfl),
      fun ht => handsOut_issued (a := .step) rfl (tap _ ht) (earlyOutcome_setting rfl),
      fun hn => handsOut_issued (a := .preset) rfl (preset _ hn) (earlyOutcome_setting rfl),
      handsOut_issued (a := .clearCounters) rfl rfl (plain rfl)⟩
  · intro i l code args d x pulled sets
    have setting : ∀ {a : Action} {y : TxUnit → TxUnit × ReplyOutcome}, settingOp a args = some y →
        actionOfCode code.toNat = some a → sets (y x.tx) := fun ha hc ho =>
      have taken := taken_setting (op := op) ha hc ho
      ⟨taken.taken, taken.alone fun c => c.2 (Lane.operated_state.trans c.1), taken.self⟩
    have named : ∀ {c : Byte}, code = c → actionOfCode code.toNat = actionOfCode c.toNat := fun hc => by rw [hc]
    refine ⟨fun ho h1 h10 => ?_, fun hc ho hd => ?_, fun hc hd => ?_, fun hc ho => ?_, fun hc ho => ?_, fun hc ho => ?_,
      fun hc => setting (a := .save) rfl (named hc), fun hc => setting (a := .restore) rfl (named hc),
      fun hc => setting (a := .discard) rfl (named hc),
      fun t₀ hc ht => setting (a := .step) (congrArg some (stepOp_eq ht)) (named hc),
      fun n hc hn => setting (a := .preset) (congrArg some (presetOp_eq hn)) (named hc), fun hc ho => ?_⟩
    · obtain ⟨a, hc, ha⟩ := actionOfCode_usesMask h1 h10
      have taken := taken_off (op := op) ha hc ho
      exact ⟨taken.taken, (taken.stays rfl).symm⟩
    · have taken := taken_byRule (op := op) (retrain_rule s p args) rfl (named hc) ((if_neg ho).trans (if_neg hd))
      exact ⟨taken.taken, taken.leaves ((retrain_leaving s).leaves i l),
        taken.self.trans (Lane.retrained_trains _ ho hd)⟩
    · have taken := taken_byRule (op := op) (retrain_rule s p args) rfl (named hc)
        ((if_neg (by rw [hd]; nofun)).trans (if_pos hd))
      exact ⟨taken.taken, taken.stays (Lane.retrained_stays _ (.inr hd))⟩
    · have taken := taken_byRule (op := op) (hold_rule s p args) rfl (named hc) (if_neg ho)
      have held := taken.self.trans (Lane.mapped_on ho)
      exact ⟨taken.taken, taken.leaves ((hold_leaving p).leaves i l), held ▸ Lane.addHold_state _ _, held⟩
    · have taken := taken_byRule (op := op) (release_rule s p args) rfl (named hc) (if_neg ho)
      refine ⟨taken.taken, taken.alone fun c => c.2 (release_staying s p i l c.1),
        (taken.self.trans (Lane.mapped_on ho)).trans ?_⟩
      unfold Lane.releasedBy Lane.goOn
      simp only [HoldSet.isEmpty_iff]
      rfl
    · by_cases busy : l.state = .down ∨ x.scan.inFlight ≠ none
      · have taken := taken_measure_busy (op := op) hc ho busy
        exact ⟨(taken.stays rfl).1, fun _ => ⟨taken.taken, taken.self⟩, fun hd hn => absurd busy (by simp [hd, hn])⟩
      · obtain ⟨hd, hn⟩ := not_or.mp busy
        have taken := taken_measure (op := op) hc ho hd (not_not.mp hn)
        refine ⟨taken.alone fun c => c.2 ((Lane.setHalf_state _ _ _).trans c.1), fun h => absurd h busy, fun _ _ =>
          ⟨taken.taken, taken.self.trans ?_⟩⟩
        unfold State.measured
        rw [startScan_action _ (not_not.mp hn)]
        rfl
    · have taken := taken_byRule (op := op) (clear_rule s p args) rfl (named hc) (if_neg ho)
      exact ⟨taken.taken, taken.alone fun c => c.2 (clear_staying i l c.1), taken.self.trans (Lane.mapped_on ho)⟩

end Sys2Proof.Machine
end

section
/-! SUPPORT. A good frame at a segment in EXCHANGE or DONE, one field after the other (R84 to R100), and what the lane makes of
it (R37, R43, R44). -/

namespace Sys2Proof.Machine

/-! ## The request field (R88, R89) -/

/-- Transmitter and Responder after a frame's request: none, a repeat, one that names nothing, or a new one. -/
def Half.served (h : Half) (f : Frame) : TxUnit × Responder :=
  match f.request with
  | .none => (h.tx, h.resp)
  | .bad => if h.resp.lastTag = some f.requestTag then (h.tx, h.resp) else (h.tx, ⟨some f.requestTag, .badRequest⟩)
  | .request q => if h.resp.lastTag = some f.requestTag then (h.tx, h.resp)
    else ((h.tx.serve q).1, ⟨some f.requestTag, (h.tx.serve q).2⟩)

theorem takeRequest_served (h : Half) (f : Frame) :
    h.takeRequest f = { h with tx := (h.served f).1, resp := (h.served f).2 } := by
  unfold Half.takeRequest Half.served
  cases f.request with
  | none => rfl
  | bad => dsimp only; split <;> rfl
  | request q => dsimp only; split <;> rfl

/-- Serving looks at transmitter and Responder alone. -/
theorem served_congr {h x : Half} (f : Frame) (ht : x.tx = h.tx) (hr : x.resp = h.resp) : x.served f = h.served f := by
  unfold Half.served
  rw [ht, hr]

/-- A frame without a request, or with one that is a repeat, is not served (R88). -/
theorem served_silent {h : Half} {f : Frame} (hq : f.request = .none ∨ h.resp.lastTag = some f.requestTag) :
    h.served f = (h.tx, h.resp) := by
  unfold Half.served
  cases e : f.request with
  | none => rfl
  | bad => exact if_pos (hq.resolve_left (by rw [e]; nofun))
  | request q => exact if_pos (hq.resolve_left (by rw [e]; nofun))

theorem served_bad {h : Half} {f : Frame} (hq : f.request = .bad) (hn : h.resp.lastTag ≠ some f.requestTag) :
    h.served f = (h.tx, ⟨some f.requestTag, .badRequest⟩) := by
  unfold Half.served
  rw [hq]
  exact if_neg hn

theorem served_new {h : Half} {f : Frame} {q : Request} (hq : f.request = .request q)
    (hn : h.resp.lastTag ≠ some f.requestTag) :
    h.served f = ((h.tx.serve q).1, ⟨some f.requestTag, (h.tx.serve q).2⟩) := by
  unfold Half.served
  rw [hq]
  exact if_neg hn

/-! ## DONE: the request and the echo alone (R88, R100) -/

/-- A frame of the partner's session in DONE: session, synchronised test, reply and readiness have nothing to do. -/
theorem takeFrame_done {ctx : Ctx} {h : Half} {f : Frame} (hs : h.seg.state = .done)
    (hp : h.seg.partner = some f.sessionNumber) : h.takeFrame ctx f = Out.ok
      { h with seg := { h.seg with echo := f.echo }, tx := (h.served f).1, resp := (h.served f).2 } := by
  have absent : ∀ {P : Prop}, ¬ (h.seg.state = .exchange ∧ P) := fun c => by rw [hs] at c; exact nomatch c.1
  have session : h.takeSession ctx f = h := by
    unfold Half.takeSession
    rw [hs]
    exact if_pos hp
  have sync : h.takeSync f = h := if_neg absent
  have reply : h.takeReply ctx f = Out.ok h := if_neg absent
  have ready : (h.takeRequest f).takeReady f = h.takeRequest f := if_neg (by rw [takeRequest_seg]; exact absent)
  have done : ((h.takeRequest f).takeEcho f).tryDone = (h.takeRequest f).takeEcho f := by
    refine if_neg ?_
    change ¬ ((h.takeRequest f).seg.state = .exchange ∧ _)
    rw [takeRequest_seg]
    exact absent
  unfold Half.takeFrame
  rw [session, sync, reply]
  dsimp only [Out.ok]
  rw [ready, done, takeRequest_served]
  rfl

/-- Settles O17: the lane stores what the request and the echo leave of the segment. -/
theorem partnerRequestIsServedInDone : Obligations.PartnerRequestIsServedInDone := by
  intro r bits s i d f hr hst hl hlaw hd hp hf
  have exec := frameReceived_eq bits hr hst (by rw [hd]; nofun)
  rw [hf, goodFrame_eq f (by rcases hl with e | e <;> rw [e] <;> nofun), takeFrame_done hd hp,
    applyOut_steady hlaw rfl rfl, Lane.took_ok] at exec
  refine ⟨_, exec, fun hq => ?_, fun hq hn => ?_, fun q hq hn => ?_⟩
  · rw [engineEvent_quiet, served_silent hq]
    rfl
  · rw [engineEvent_quiet, served_bad hq hn]
    rfl
  · rw [engineEvent_quiet, served_new hq hn]
    rfl

/-! ## EXCHANGE: session, synchronised test and reply (R85, R92, R94) -/

/-- Another session is adopted (R85). -/
theorem takeSession_exchange {h : Half} (ctx : Ctx) (f : Frame) (hs : h.seg.state = .exchange) :
    h.takeSession ctx f = if h.seg.partner = some f.sessionNumber then h else
      { h with
        seg := { h.seg with partner := some f.sessionNumber, partnerReady := false }
        resp := ⟨none, .none⟩ } := by
  unfold Half.takeSession
  rw [hs]
  rfl

theorem takeSession_staysExchange {h : Half} (ctx : Ctx) (f : Frame) (hs : h.seg.state = .exchange) :
    (h.takeSession ctx f).seg.state = .exchange := by
  rw [takeSession_exchange ctx f hs]
  split <;> exact hs

/-- A frame without a reply tag synchronises the segment, which issues a request that waited (R94). -/
theorem takeSync_exchange {h : Half} (f : Frame) (hs : h.seg.state = .exchange) :
    h.takeSync f = if f.reply? = none ∧ h.seg.synchronised = false then
        { h with
          seg := { h.seg with synchronised := true }
          req := match h.req.handed with | some q => h.req.issue q | none => h.req }
      else h := by
  unfold Half.takeSync
  by_cases hr : f.reply? = none ∧ h.seg.synchronised = false
  · rw [if_pos hr, if_pos ⟨hs, Option.isNone_iff_eq_none.mpr hr.1, hr.2⟩]
    unfold Half.synchronise
    dsimp only
    cases h.req.handed <;> rfl
  · rw [if_neg hr, if_neg fun c => hr ⟨Option.isNone_iff_eq_none.mp c.2.1, c.2.2⟩]

/-- A frame whose reply does not carry the outstanding tag, or carries no outcome, answers nothing (R92). -/
theorem takeReply_unanswered {ctx : Ctx} {h : Half} {f : Frame}
    (hn : ∀ q tag, h.req.outstanding = some (q, tag) → f.reply? ≠ some tag ∨ f.outcome = .none) :
    h.takeReply ctx f = Out.ok h := by
  refine if_neg fun c => ?_
  have answers := c.2
  unfold Half.replyAnswers at answers
  split at answers
  · next q tag e =>
    simp only [Bool.and_eq_true, decide_eq_true_eq] at answers
    exact (hn q tag e).elim (· answers.1) answers.2
  · cases answers

/-- The reply to the outstanding request reaches the search (R92). -/
theorem takeReply_answered {ctx : Ctx} {h : Half} {f : Frame} {q : Request} {tag : Fin 4} (hs : h.seg.state = .exchange)
    (hq : h.req.outstanding = some (q, tag)) (hr : f.reply? = some tag) (ho : f.outcome ≠ .none) :
    h.takeReply ctx f = Half.answered ctx
      { h with req := { h.req with outstanding := none, tReply := none, lastReply := some (tag, f.outcome) } }
      f.outcome := by
  unfold Half.takeReply
  rw [if_pos, hr]
  · rfl
  · refine ⟨hs, ?_⟩
    unfold Half.replyAnswers
    rw [hq]
    exact Bool.and_eq_true_iff.mpr ⟨decide_eq_true hr, decide_eq_true ho⟩

/-- What a reply does reaches no further than the search (R92). -/
theorem takeReply_searchOnly (ctx : Ctx) (h : Half) (f : Frame) : SearchOnly h (h.takeReply ctx f).half := by
  unfold Half.takeReply
  split
  · exact (SearchOnly.requester h _).trans (answered_searchOnly ctx _ _)
  · exact .refl h

/-! ## EXCHANGE: request, readiness, echo and DONE entry (R88, R97, R98, R100) -/

/-- The side `x` that the reply has left of `h`, with the frame's request, readiness and echo taken. -/
def Half.fieldsTaken (h x : Half) (f : Frame) : Half :=
  { x with
    tx := (h.served f).1
    resp := (h.served f).2
    seg := { x.seg with
      echo := f.echo
      partnerReady := x.seg.partnerReady || (f.ready && h.seg.synchronised) } }

/-- The side of a segment that enters DONE (R35, R98, R126). -/
def Half.doneEntered (x : Half) : Half :=
  { x with seg := { x.seg with state := .done, tTune := none, reason := .none, finalFom := x.search.reference } }

/-- Both segments are ready (R98). -/
def Half.bothReady (x : Half) : Prop := x.seg.ownReady = true ∧ x.seg.partnerReady = true

theorem takeEcho_fieldsTaken {h x : Half} (f : Frame) (hx : SearchOnly h x) (hs : h.seg.state = .exchange) :
    ((x.takeRequest f).takeReady f).takeEcho f = h.fieldsTaken x f := by
  obtain ⟨tx, resp, -, state, -, -, -, -, sync, -⟩ := hx.scanOnly.keeps
  rw [takeReady_exchange f (by rw [takeRequest_seg, state, hs]), takeRequest_served, served_congr f tx resp]
  unfold Half.takeEcho Half.fieldsTaken
  rw [← sync]

theorem tryDone_bothReady {x : Half} (hs : x.seg.state = .exchange) (hb : x.bothReady) : x.tryDone = x.doneEntered :=
  if_pos ⟨hs, hb⟩

theorem tryDone_notBothReady {x : Half} (hb : ¬ x.bothReady) : x.tryDone = x := if_neg fun c => hb c.2

/-- DONE entry keeps what a failure of the lane shows (R37, R39). -/
theorem tryDone_keeps (x : Half) : x.tryDone.tx = x.tx ∧ x.tryDone.seg.own = x.seg.own := by
  unfold Half.tryDone
  split <;> exact ⟨rfl, rfl⟩

/-- A frame taken in EXCHANGE, from what its reply leaves. -/
theorem takeFrame_exchange {ctx : Ctx} {h : Half} {f : Frame} (hs : h.seg.state = .exchange) :
    let h₂ := (h.takeSession ctx f).takeSync f
    h₂.seg.state = .exchange ∧
      h.takeFrame ctx f = { h₂.takeReply ctx f with half := (h₂.fieldsTaken (h₂.takeReply ctx f).half f).tryDone } := by
  have state : ((h.takeSession ctx f).takeSync f).seg.state = .exchange :=
    (takeSync_state _ f).trans (takeSession_staysExchange ctx f hs)
  refine ⟨state, ?_⟩
  rw [← takeEcho_fieldsTaken f (takeReply_searchOnly ctx _ f) state]
  rfl

/-! ## What the lane makes of the frame (R37, R43, R44) -/

/-- An event that asks for no retrain is stored as the side it leaves. -/
theorem Lane.took_noRetrain (l : Lane) (d : Side) {o : Out} (hr : o.retrain = false) :
    l.took d o = l.setHalf d o.half := by
  rw [← Lane.took_ok]
  unfold Lane.took Out.ok
  rw [hr]

theorem Lane.setHalf_setHalf (l : Lane) (d : Side) (x y : Half) : (l.setHalf d x).setHalf d y = l.setHalf d y := by
  cases d <;> rfl

section Trained
variable {s : State} {i : LaneId} {d : Side} {o : Out}

/-- An event that fails a running segment of a lane in TRAIN fails the lane (R37, R44). -/
theorem applyOut_fails {e : FailReason} (hl : (s.lane i).state = .train) (hf : o.fail = some e)
    (hs : o.half.seg.state ≠ .idle) : s.applyOut i d o = s.setLane i (((s.lane i).took d o).fail d e) := by
  rcases applyOut_eq s i d o with ⟨r, hr, -, -, stored⟩ | ⟨r, -, spared, -⟩ | ⟨none, -⟩
  · rw [stored, Option.some.inj (hf.symm.trans hr)]
    rfl
  · exact absurd ⟨.inl ((Lane.took_state _ d o).trans hl), hs⟩ spared
  · rw [hf] at none
    cases none

/-- A lane in TRAIN whose segments an event brings to DONE waits in READY while another lane of its leg is not READY (R43). -/
theorem applyOut_waits {k : LegId} {j : LaneId} (hl : (s.lane i).state = .train) (hf : o.fail = none)
    (hd : ((s.lane i).took d o).readyDue) (hk : s.legOf i = some k) (hj : j ≠ i) (hjk : s.legOf j = some k)
    (late : (s.lane j).state ≠ .ready) :
    s.applyOut i d o = s.setLane i { (s.lane i).took d o with state := .ready } := by
  have stays : ((s.lane i).took d o).afterRestart d = (s.lane i).took d o :=
    if_neg fun c => by rw [Lane.took_state, hl] at c; exact nomatch c.1
  have checked : s.applyOut i d o = (s.setLane i ((s.lane i).took d o)).readyCheck i := by
    rcases applyOut_eq s i d o with ⟨r, e, -⟩ | ⟨r, e, -⟩ | ⟨-, e⟩
    · exact nomatch hf.symm.trans e
    · exact nomatch hf.symm.trans e
    · change _ = (s.setLane i (((s.lane i).took d o).afterRestart d)).readyCheck i at e
      rwa [stays] at e
  have lane := State.lane_setLane_self s i ((s.lane i).took d o)
  rw [checked]
  rcases readyCheck_eq (s.setLane i ((s.lane i).took d o)) i with ⟨-, hn⟩ | ⟨-, -, -, ⟨ready, -⟩ | ⟨m, hm, peers, -⟩⟩
  · rw [lane] at hn
    exact absurd hd hn
  · rw [ready, lane]
    simp [State.setLane]
  · obtain rfl : k = m := Option.some.inj (hk.symm.trans hm)
    have peer := peers j hj hjk
    rw [State.lane_setLane_ne s _ hj] at peer
    exact absurd peer late

end Trained

/-- What the statement of a frame in EXCHANGE says of the lane, `fail` being the failure by the reply and `x` the side with
every field taken: the lane fails, stores the side, stores it DONE, or goes to READY and waits there. -/
structure FrameStored (s t : State) (i : LaneId) (d : Side) (fail : Option FailReason) (x : Half) : Prop where
  fails : ∀ e, fail = some e →
    ((s.lane i).setHalf d x).failsTo (t.lane i) d e ∧ onlyLane s t i ∧ t.offLanes = s.offLanes
  stays : fail = none → ¬ x.bothReady → t.quiet = (s.setLane i ((s.lane i).setHalf d x)).quiet
  done : fail = none → x.bothReady → (s.half i (Side.opposite d)).seg.state ≠ .done →
    t.quiet = (s.setLane i ((s.lane i).setHalf d x.doneEntered)).quiet
  waits : ∀ k j, fail = none → x.bothReady → (s.half i (Side.opposite d)).seg.state = .done → s.legOf i = some k →
    j ≠ i → s.legOf j = some k → (s.lane j).state ≠ .ready →
    t.quiet = (s.setLane i { (s.lane i).setHalf d x.doneEntered with state := .ready }).quiet

/-- A lane in TRAIN takes a side in EXCHANGE that enters DONE if it may. -/
theorem applyOut_frameStored {s : State} {i : LaneId} {d : Side} {o : Out} {x : Half} (hl : (s.lane i).state = .train)
    (hr : o.retrain = false) (ho : o.half = x.tryDone) (hx : x.seg.state = .exchange) :
    FrameStored s (engineEvent s (s.applyOut i d o)) i d o.fail x := by
  have took : (s.lane i).took d o = (s.lane i).setHalf d x.tryDone := ho ▸ Lane.took_noRetrain _ d hr
  have train : ∀ {P : Prop}, ¬ ((s.lane i).state = .ready ∧ P) := fun c => by rw [hl] at c; exact nomatch c.1
  refine ⟨fun e he => ?_, fun he hb => ?_, fun he hb rest => ?_, fun k j he hb rest hk hj hjk late => ?_⟩
  · have running : o.half.seg.state ≠ .idle := by
      rw [ho]
      rcases tryDone_exchanging (.inl hx) with e | e <;> rw [e] <;> nofun
    obtain ⟨tx, own⟩ := tryDone_keeps x
    have side := Lane.half_setHalf_self (s.lane i) d x
    have fails : ((s.lane i).setHalf d x).failsTo ((((s.lane i).setHalf d x).setHalf d x.tryDone).fail d e) d e :=
      Lane.fail_failsTo _ d e (by rw [tx, side]) (by rw [own, side])
    rw [Lane.setHalf_setHalf] at fails
    rw [applyOut_fails hl he running, took]
    refine ⟨?_, onlyLane_setLane s i _, engineEvent_offLanes _ _⟩
    rwa [engineEvent_lane, State.lane_setLane_self]
  · rw [tryDone_notBothReady hb] at took
    have short : ¬ ((s.lane i).took d o).readyDue := not_readyDue (d := d) fun c => by
      rw [took, Lane.half_setHalf_self, hx] at c
      cases c
    rw [engineEvent_quiet, applyOut_stored he train short, took]
  · rw [tryDone_bothReady hx hb] at took
    have short : ¬ ((s.lane i).took d o).readyDue := not_readyDue (d := Side.opposite d) (by
      rwa [took, Lane.half_setHalf, if_neg (Side.opposite_ne d)])
    rw [engineEvent_quiet, applyOut_stored he train short, took]
  · rw [tryDone_bothReady hx hb] at took
    have due : ((s.lane i).took d o).readyDue := by
      rw [took]
      refine ⟨(Lane.setHalf_state _ _ _).trans hl, ?_⟩
      cases d
      · exact ⟨rfl, rest⟩
      · exact ⟨rest, rfl⟩
    rw [engineEvent_quiet, applyOut_waits hl he due hk hj hjk late, took]

/-- Settles O16: the fields are taken one after the other, the reply before the others, and the lane takes the result. -/
theorem exchangeFramesAreTakenFieldByField : Obligations.ExchangeFramesAreTakenFieldByField := by
  intro r bits s i d f hr hst hl hs hf h₀ h₁ h₂
  have session : h₀.takeSession (s.ctx i d) f = h₁ := takeSession_exchange _ f hs
  have running : h₁.seg.state = .exchange := session ▸ takeSession_staysExchange (s.ctx i d) f hs
  have sync : (h₀.takeSession (s.ctx i d) f).takeSync f = h₂ := session ▸ takeSync_exchange f running
  obtain ⟨state, frame⟩ := takeFrame_exchange (ctx := s.ctx i d) (h := h₀) (f := f) hs
  rw [sync] at state frame
  have retrain := frame ▸ takeFrame_retrain (s.ctx i d) h₀ f
  have exec := frameReceived_eq bits hr hst (by rw [hs]; nofun)
  rw [hf, goodFrame_eq f (by rw [hl]; nofun), show s.half i d = h₀ from rfl, frame] at exec
  have stored := applyOut_frameStored (d := d) hl retrain rfl ((takeReply_state _ _ f).trans state)
  generalize engineEvent s _ = t at exec stored
  refine ⟨_, exec, fun hn => ?_, fun q tag hq hreply ho => ?_⟩
  · obtain ⟨fails, stays, done, waits⟩ := takeReply_unanswered (ctx := s.ctx i d) hn ▸ stored
    exact ⟨fails, stays, done, waits⟩
  · obtain ⟨fails, stays, done, waits⟩ := takeReply_answered (ctx := s.ctx i d) state hq hreply ho ▸ stored
    exact ⟨fails, stays, done, waits⟩

end Sys2Proof.Machine
end

section
/-! SUPPORT. What the tuning search does with an answer and with a reading, phase by phase (R93, R113, R116 to R126). -/

namespace Sys2Proof.Machine

/-! ## What the search hands over at a synchronised segment (R93, R94) -/

section Search
variable {ctx : Ctx} {h : Half}

theorem hand_synchronised (hs : h.seg.synchronised = true) (r : Request) :
    h.hand r = { h with req := h.req.issue r } := if_pos hs

theorem handTrial_synchronised (hs : h.seg.synchronised = true) (q : Search) :
    Half.handTrial { h with search := q } =
      { h with search := { q with phase := .trying }, req := h.req.issue (.trial q.tap q.dir) } :=
  hand_synchronised (h := { h with search := { q with phase := .trying } }) hs _

theorem startTap_synchronised (hs : h.seg.synchronised = true) (q : Search) (t : Tap) :
    Half.startTap { h with search := q } t = { h with
      search := { q with tap := t, dir := .minus, tapMoved := false, phase := .trying }
      req := h.req.issue (.trial t .minus) } :=
  handTrial_synchronised hs { q with tap := t, dir := .minus, tapMoved := false }

theorem close_synchronised (hs : h.seg.synchronised = true) (q : Search) (p : Phase) (r : Request) :
    Half.close { h with search := q } p r =
      { h with search := { q with phase := p }, req := h.req.issue r } :=
  hand_synchronised (h := { h with search := { q with phase := p } }) hs r

/-! ## The end of a direction, of a tap and of a pass (R118, R119, R125, R126) -/

/-- The tap has been tried in both directions, or has moved in the first one (R119). -/
abbrev Search.tapOver (q : Search) : Prop := q.dir = .plus ∨ q.tapMoved = true

/-- The pass has moved no tap, or is the fourth (R118). -/
abbrev Search.lastPass (q : Search) : Prop := q.passMoved = false ∨ 4 ≤ q.pass

theorem Search.not_tapOver_iff (q : Search) : ¬ q.tapOver ↔ q.dir = .minus ∧ q.tapMoved = false := by
  unfold Search.tapOver
  cases q.dir <;> simp

theorem Search.not_turning (q : Search) (h : q.tapOver) : ¬ (q.dir = .minus ∧ q.tapMoved = false) := fun c =>
  q.not_tapOver_iff.mpr c h

theorem Search.not_lastPass_iff (q : Search) :
    ¬ q.lastPass ↔ (q.passMoved && decide (q.pass < passLimit)) = true := by
  unfold Search.lastPass passLimit
  cases q.passMoved <;> simp

theorem endDirection_turns (hs : h.seg.synchronised = true) (ht : ¬ h.search.tapOver) : h.endDirection ctx = Out.ok
    { h with
      search := { h.search with dir := .plus, phase := .trying }
      req := h.req.issue (.trial h.search.tap .plus) } := by
  unfold Half.endDirection
  rw [if_pos (h.search.not_tapOver_iff.mp ht)]
  exact congrArg Out.ok (handTrial_synchronised hs { h.search with dir := .plus })

theorem endDirection_post1 (hs : h.seg.synchronised = true) (ht : h.search.tapOver) (hp : h.search.tap = .post1) :
    h.endDirection ctx = Out.ok { h with
      search := { h.search with tap := .pre, dir := .minus, tapMoved := false, phase := .trying }
      req := h.req.issue (.trial .pre .minus) } := by
  unfold Half.endDirection
  rw [if_neg (h.search.not_turning ht), hp]
  exact congrArg Out.ok (startTap_synchronised hs h.search .pre)

theorem endDirection_pre (hs : h.seg.synchronised = true) (ht : h.search.tapOver) (hp : h.search.tap = .pre) :
    h.endDirection ctx = Out.ok { h with
      search := { h.search with tap := .post2, dir := .minus, tapMoved := false, phase := .trying }
      req := h.req.issue (.trial .post2 .minus) } := by
  unfold Half.endDirection
  rw [if_neg (h.search.not_turning ht), hp]
  exact congrArg Out.ok (startTap_synchronised hs h.search .post2)

/-- A pass that moved a tap is followed by another, up to the fourth (R118). -/
theorem endDirection_nextPass (hs : h.seg.synchronised = true) (ht : h.search.tapOver) (hp : h.search.tap = .post2)
    (hl : ¬ h.search.lastPass) : h.endDirection ctx = Out.ok { h with
      search := { h.search with
        pass := h.search.pass + 1, passMoved := false, tap := .post1, dir := .minus, tapMoved := false,
        phase := .trying }
      req := h.req.issue (.trial .post1 .minus) } := by
  unfold Half.endDirection Half.endPass
  rw [if_neg (h.search.not_turning ht), hp]
  dsimp only
  rw [if_pos (h.search.not_lastPass_iff.mp hl)]
  exact congrArg Out.ok
    (startTap_synchronised hs { h.search with pass := h.search.pass + 1, passMoved := false } .post1)

/-- The last pass ends with the acceptance, by the reference against the leg's threshold (R125, R126). -/
theorem endDirection_accepts (ht : h.search.tapOver) (hp : h.search.tap = .post2) (hl : h.search.lastPass) {f : Nat}
    (hf : h.search.reference = some f) : h.endDirection ctx =
      if ctx.threshold ≤ f then Out.ok (h.accept false)
      else if ctx.lowMargin then Out.ok (h.accept true)
      else ⟨h, some .lowMargin, false⟩ := by
  unfold Half.endDirection Half.endPass Half.acceptance
  rw [if_neg (h.search.not_turning ht), hp]
  dsimp only
  rw [if_neg fun c => h.search.not_lastPass_iff.mpr c hl, hf]
  simp only [decide_eq_true_eq]

/-! ## Answers (R116, R120, R122, R123) -/

theorem answered_opening (o : ReplyOutcome) (hp : h.search.phase = .opening) : h.answered ctx o =
    if o = .applied then Out.ok (h.settleIn .reference) else ⟨h, some .partnerRefused, false⟩ := by
  unfold Half.answered
  rw [hp]
  cases o <;> rfl

/-- A TRY that is not applied for want of room ends the direction (R120). -/
theorem answered_trying (o : ReplyOutcome) (hp : h.search.phase = .trying) : h.answered ctx o =
    if o = .applied then Out.ok (h.settleIn .measuring)
    else if o = .atLimit ∨ o = .stackFull then h.endDirection ctx
    else ⟨h, some .partnerRefused, false⟩ := by
  unfold Half.answered
  rw [hp]
  cases o <;> rfl

theorem answered_keeping (hs : h.seg.synchronised = true) (hp : h.search.phase = .keeping) :
    h.answered ctx .applied = Out.ok { h with
      search := { h.search with
        reference := h.search.trialReading, tapMoved := true, passMoved := true, phase := .trying }
      req := h.req.issue (.trial h.search.tap h.search.dir) } := by
  unfold Half.answered
  rw [hp]
  exact congrArg Out.ok (handTrial_synchronised hs
    { h.search with reference := h.search.trialReading, tapMoved := true, passMoved := true })

theorem answered_backing (hp : h.search.phase = .backing) : h.answered ctx .applied = h.endDirection ctx := by
  unfold Half.answered
  rw [hp]

/-- A KEEP or a BACK that is not applied fails the segment (R122, R123). -/
theorem answered_closing {o : ReplyOutcome} (hp : h.search.phase = .keeping ∨ h.search.phase = .backing)
    (ho : o ≠ .applied) : h.answered ctx o =
      ⟨h, some (if o = .stackEmpty then .partnerStack else .partnerRefused), false⟩ := by
  unfold Half.answered
  rcases hp with e | e <;> rw [e]
  all_goals
    cases o with
    | applied => exact absurd rfl ho
    | _ => rfl

/-! ## Readings (R117, R121, R124) -/

theorem countUnordered_goesOn {next : Half → Half} (hu : h.search.unordered + 1 < 3) : h.countUnordered next =
    Out.ok (next { h with search := { h.search with unordered := h.search.unordered + 1 } }) :=
  if_neg (Nat.not_le.mpr hu)

theorem countUnordered_fails {next : Half → Half} (hu : 3 ≤ h.search.unordered + 1) : h.countUnordered next =
    ⟨{ h with search := { h.search with unordered := h.search.unordered + 1 } }, some .noReading, false⟩ :=
  if_pos hu

theorem searchReading_reference (hs : h.seg.synchronised = true) (hp : h.search.phase = .reference) (f : Nat) :
    h.searchReading ctx (some f) = Out.ok { h with
      search := { h.search with
        reference := some f, pass := 1, passMoved := false, tap := .post1, dir := .minus, tapMoved := false,
        phase := .trying }
      req := h.req.issue (.trial .post1 .minus) } := by
  unfold Half.searchReading
  rw [hp]
  exact congrArg Out.ok
    (startTap_synchronised hs { h.search with reference := some f, pass := 1, passMoved := false } .post1)

theorem searchReading_noReference (hp : h.search.phase = .reference) :
    h.searchReading ctx none = h.countUnordered fun h => h.settleIn .reference := by
  unfold Half.searchReading
  rw [hp]

/-! ## The four results of a comparison (R113) -/

theorem compareReadings_some (hyst n r : Nat) : compareReadings hyst (some n) (some r) =
    if r + hyst < n then .better else if n + hyst < r then .worse else .equal := rfl

theorem compareReadings_better_iff {hyst n r : Nat} :
    compareReadings hyst (some n) (some r) = .better ↔ r + hyst < n := by
  rw [compareReadings_some]
  split
  · next e => exact iff_of_true rfl e
  · next e => exact iff_of_false (by split <;> nofun) e

theorem compareReadings_worse_iff {hyst n r : Nat} :
    compareReadings hyst (some n) (some r) = .worse ↔ n + hyst < r := by
  rw [compareReadings_some]
  split
  · exact iff_of_false nofun (by omega)
  · split
    · next e => exact iff_of_true rfl e
    · next e => exact iff_of_false nofun e

theorem compareReadings_equal_iff {hyst n r : Nat} :
    compareReadings hyst (some n) (some r) = .equal ↔ n ≤ r + hyst ∧ r ≤ n + hyst := by
  rw [compareReadings_some]
  split
  · exact iff_of_false nofun (by omega)
  · split
    · exact iff_of_false nofun (by omega)
    · exact iff_of_true rfl (by omega)

/-- A comparison with NO READING on either side (R113). -/
theorem compareReadings_unordered {hyst : Nat} {new ref : Fom} (h : new = none ∨ ref = none) :
    compareReadings hyst new ref = .unordered := by
  rcases h with e | e
  · rw [e]
    rfl
  · rw [e]
    cases new <;> rfl

theorem searchReading_better (hs : h.seg.synchronised = true) (hp : h.search.phase = .measuring) {f g : Nat}
    (hg : h.search.reference = some g) (hb : g + ctx.hysteresis < f) : h.searchReading ctx (some f) = Out.ok { h with
      search := { h.search with trialReading := some f, phase := .keeping }, req := h.req.issue .keep } := by
  have better : compareReadings ctx.hysteresis (some f) h.search.reference = .better :=
    hg ▸ compareReadings_better_iff.mpr hb
  unfold Half.searchReading
  rw [hp]
  dsimp only
  rw [better]
  exact congrArg Out.ok (close_synchronised hs _ _ _)

theorem searchReading_notBetter (hs : h.seg.synchronised = true) (hp : h.search.phase = .measuring) {f g : Nat}
    (hg : h.search.reference = some g) (hb : f ≤ g + ctx.hysteresis) : h.searchReading ctx (some f) = Out.ok { h with
      search := { h.search with trialReading := some f, phase := .backing }, req := h.req.issue .back } := by
  have notBetter : compareReadings ctx.hysteresis (some f) h.search.reference = .equal ∨
      compareReadings ctx.hysteresis (some f) h.search.reference = .worse := by
    rw [hg, compareReadings_equal_iff, compareReadings_worse_iff]
    omega
  unfold Half.searchReading
  rw [hp]
  dsimp only
  rcases notBetter with e | e <;> rw [e] <;> exact congrArg Out.ok (close_synchronised hs _ _ _)

/-- UNORDERED is counted, with the reading as the trial reading (R124). -/
theorem searchReading_unordered (hp : h.search.phase = .measuring) {r : Fom} (hn : r = none ∨ h.search.reference = none) :
    h.searchReading ctx r = Half.countUnordered { h with search := { h.search with trialReading := r } }
      fun h => h.close .backing .back := by
  unfold Half.searchReading
  rw [hp]
  dsimp only
  rw [compareReadings_unordered hn]

end Search

/-- Settles O20, by the phase of the search. -/
theorem answersAndReadingsDriveTheSearch : Obligations.AnswersAndReadingsDriveTheSearch := by
  refine ⟨fun ctx h o hs => ?_, fun ctx h r hs => ?_⟩
  · intro next accepted lastPass tapOver directionEnds
    have ends : h.answered ctx o = h.endDirection ctx → directionEnds := fun e =>
      ⟨fun ht => e.trans (endDirection_turns hs ht), fun ht hp => e.trans (endDirection_post1 hs ht hp),
        fun ht hp => e.trans (endDirection_pre hs ht hp), fun ht hp hl => e.trans (endDirection_nextPass hs ht hp hl),
        fun f ht hp hl hf => e.trans (endDirection_accepts ht hp hl hf)⟩
    refine ⟨fun hp => ⟨fun ho => ?_, fun ho => ?_⟩, fun hp => ⟨fun ho => ?_, fun ho => ends ?_, fun ho => ?_⟩,
      fun hp ho => ?_, fun hp ho => ends ?_, fun hp => ⟨fun ho => ?_, fun ho => ?_⟩⟩
    · rw [answered_opening o hp, if_pos ho]
      rfl
    · rw [answered_opening o hp, if_neg ho]
    · rw [answered_trying o hp, if_pos ho]
      rfl
    · rw [answered_trying o hp, if_neg (by rcases ho with e | e <;> rw [e] <;> nofun), if_pos ho]
    · rw [answered_trying o hp]
      rcases ho with e | e | e <;> rw [e] <;> rfl
    · rw [ho]
      exact answered_keeping hs hp
    · rw [ho]
      exact answered_backing hp
    · rw [answered_closing hp (by rw [ho]; nofun), if_pos ho]
    · have refused : o ≠ .applied ∧ o ≠ .stackEmpty := by rcases ho with e | e | e | e <;> rw [e] <;> decide
      rw [answered_closing hp refused.1, if_neg refused.2]
  · intro next u
    refine ⟨fun hp => ⟨fun f hr => ?_, fun hr hu => ?_, fun hr hu => ?_⟩,
      fun hp => ⟨fun f g hr hg hb => ?_, fun f g hr hg hb => ?_, fun hn hu => ?_, fun hn hu => ?_⟩⟩
    · rw [hr]
      exact searchReading_reference hs hp f
    · rw [hr, searchReading_noReference hp, countUnordered_goesOn hu]
      rfl
    · rw [hr, searchReading_noReference hp, countUnordered_fails hu]
    · rw [hr]
      exact searchReading_better hs hp hg hb
    · rw [hr]
      exact searchReading_notBetter hs hp hg hb
    · rw [searchReading_unordered hp hn,
        countUnordered_goesOn (h := { h with search := { h.search with trialReading := r } }) hu]
      exact congrArg Out.ok (close_synchronised hs _ _ _)
    · rw [searchReading_unordered hp hn]
      exact countUnordered_fails (h := { h with search := { h.search with trialReading := r } }) hu

end Sys2Proof.Machine
end

section
/-! SUPPORT. Figures of merit and every reading that a side holds stay in range under every step (R105, R111, R112). -/

namespace Sys2Proof.Machine

/-! ## Figures of merit in range (R111) -/

theorem fomOk_none : fomOk none = true := rfl

theorem fomOk_some {f : Nat} : fomOk (some f) = true ↔ f ≤ 186 := decide_eq_true_iff

theorem edgeValue_le {edges : List Nat} (h : ∀ e ∈ edges, e ≤ 31) (n : Nat) : edgeValue edges n ≤ 31 := by
  unfold edgeValue
  rw [List.getD_eq_getElem?_getD]
  cases e : edges[n]? with
  | none => exact Nat.zero_le _
  | some v => exact h v (List.mem_of_getElem? e)

theorem height_le {edges : List Nat} (h : ∀ e ∈ edges, e ≤ 31) (n : Nat) : height edges n ≤ 62 :=
  Nat.add_le_add (edgeValue_le h _) (edgeValue_le h _)

/-- With every edge at 31 at most, a height is at most 62, and the figure of merit at most 2 × 62 + 62. -/
theorem figureOfMerit_le {edges : List Nat} (h : ∀ e ∈ edges, e ≤ 31) : figureOfMerit edges ≤ 186 := by
  have upper := height_le h 0
  have middle := height_le h 1
  have lower := height_le h 2
  unfold figureOfMerit
  omega

/-! ## The law of readings, part by part (R105, R111) -/

/-- The scan in flight and the last reading of a scanner are in range. -/
def Scanner.inRange (x : Scanner) : Prop :=
  scanOk x.inFlight = true ∧ (∀ e ∈ x.last.edges, e ≤ 31) ∧ fomOk x.last.fom = true

/-- The two readings that a search holds are in range. -/
def Search.inRange (q : Search) : Prop := fomOk q.reference = true ∧ fomOk q.trialReading = true

theorem readingLaw_iff (h : Half) : h.readingLaw = true ↔
    h.scan.inRange ∧ h.search.inRange ∧ fomOk h.seg.finalFom = true ∧ fomOk h.watch.baseline = true := by
  simp only [Half.readingLaw, Scanner.inRange, Search.inRange, Bool.and_eq_true, List.all_eq_true, decide_eq_true_eq]
  tauto

theorem scanOk_some {sc : Scan} : scanOk (some sc) = true ↔
    sc.edges.length ≤ 5 ∧ (∀ e ∈ sc.edges, e ≤ 31) ∧ 1 ≤ sc.offset ∧ sc.offset ≤ 31 := by
  simp only [scanOk, Bool.and_eq_true, List.all_eq_true, decide_eq_true_eq]
  tauto

theorem Scanner.inRange.with {x : Scanner} (h : x.inRange) {f : Option Scan} (hf : scanOk f = true) (w : Bool) (n : Nat) :
    Scanner.inRange ⟨f, w, x.last, n⟩ := ⟨hf, h.2⟩

/-- A scan that starts is at offset 1 with no edge ended (R105). -/
theorem scanOk_start (o : Origin) : scanOk (some ⟨o, 1, []⟩) = true := rfl

/-- A reading that may be recorded. -/
def Reading.inRange (r : Reading) : Prop := (∀ e ∈ r.edges, e ≤ 31) ∧ fomOk r.fom = true

/-- The edges of an empty reading and of NO READING (R103, R108). -/
theorem edges_zero : ∀ e ∈ [0, 0, 0, 0, 0, 0], e ≤ 31 := by decide

theorem noReading_inRange (o : Origin) : (Reading.noReading o).inRange :=
  ⟨edges_zero, rfl⟩

/-- Readings in range are carried over where a side changes its scanner, its search, its final figure of merit and its
baseline by values in range. -/
theorem readingLaw_update {h h' : Half} (hh : h.readingLaw = true) (hx : h.scan.inRange → h'.scan.inRange)
    (hq : h.search.inRange → h'.search.inRange)
    (hf : h'.seg.finalFom = h.seg.finalFom) (hb : h'.watch.baseline = h.watch.baseline) : h'.readingLaw = true := by
  obtain ⟨scan, search, final, baseline⟩ := (readingLaw_iff h).mp hh
  exact (readingLaw_iff h').mpr ⟨hx scan, hq search, hf ▸ final, hb ▸ baseline⟩

/-! ## The search keeps its readings in range (R117, R121, R122) -/

section Search
variable {ctx : Ctx} {h : Half}

@[simp] theorem hand_search (h : Half) (r : Request) : (h.hand r).search = h.search := by
  unfold Half.hand
  split <;> rfl

/-- A TRY, a KEEP or a BACK looks at no reading. -/
theorem handTrial_inRange (hq : h.search.inRange) : h.handTrial.search.inRange := by
  unfold Half.handTrial
  rw [hand_search]
  exact hq

theorem startTap_inRange (hq : h.search.inRange) (t : Tap) : (h.startTap t).search.inRange :=
  handTrial_inRange (h := { h with search := { h.search with tap := t, dir := .minus, tapMoved := false } }) hq

theorem close_inRange (hq : h.search.inRange) (p : Phase) (r : Request) : (h.close p r).search.inRange := by
  unfold Half.close
  rw [hand_search]
  exact hq

theorem acceptance_inRange (hq : h.search.inRange) : (h.acceptance ctx).half.search.inRange := by
  unfold Half.acceptance
  dsimp only
  split_ifs <;> exact hq

theorem endDirection_inRange (hq : h.search.inRange) : (h.endDirection ctx).half.search.inRange := by
  unfold Half.endDirection
  split
  · exact handTrial_inRange (h := { h with search := { h.search with dir := .plus } }) hq
  · split
    · exact startTap_inRange hq _
    · exact startTap_inRange hq _
    · unfold Half.endPass
      split
      · exact startTap_inRange
          (h := { h with search := { h.search with pass := h.search.pass + 1, passMoved := false } }) hq _
      · exact acceptance_inRange hq

/-- An answer makes the trial reading the reference, or leaves both (R122). -/
theorem answered_inRange (hq : h.search.inRange) (o : ReplyOutcome) : (h.answered ctx o).half.search.inRange := by
  unfold Half.answered
  cases h.search.phase with
  | opening => cases o <;> exact hq
  | trying =>
    cases o with
    | atLimit | stackFull => exact endDirection_inRange hq
    | applied | none | stackEmpty | badRequest => exact hq
  | keeping =>
    cases o with
    | applied => exact handTrial_inRange (h := { h with search := { h.search with
        reference := h.search.trialReading, tapMoved := true, passMoved := true } }) ⟨hq.2, hq.2⟩
    | none | atLimit | stackFull | stackEmpty | badRequest => exact hq
  | backing =>
    cases o with
    | applied => exact endDirection_inRange hq
    | none | atLimit | stackFull | stackEmpty | badRequest => exact hq
  | none | reference | measuring | accepted | halted => exact hq

theorem countUnordered_inRange {next : Half → Half} (hq : h.search.inRange)
    (hn : ∀ x : Half, x.search.inRange → (next x).search.inRange) : (h.countUnordered next).half.search.inRange := by
  unfold Half.countUnordered
  dsimp only
  split
  · exact hq
  · exact hn _ hq

/-- A reading in range becomes the reference or the trial reading (R117, R121). -/
theorem searchReading_inRange (hq : h.search.inRange) {r : Fom} (hr : fomOk r = true) :
    (h.searchReading ctx r).half.search.inRange := by
  unfold Half.searchReading
  split
  · split
    · exact startTap_inRange (h := { h with search := { h.search with reference := _, pass := 1, passMoved := false } })
        ⟨hr, hq.2⟩ _
    · exact countUnordered_inRange hq fun _ hx => hx
  · have taken : Search.inRange { h.search with trialReading := r } := ⟨hq.1, hr⟩
    dsimp only
    split
    · exact close_inRange (h := { h with search := { h.search with trialReading := r } }) taken _ _
    · exact close_inRange (h := { h with search := { h.search with trialReading := r } }) taken _ _
    · exact close_inRange (h := { h with search := { h.search with trialReading := r } }) taken _ _
    · exact countUnordered_inRange (h := { h with search := { h.search with trialReading := r } }) taken
        fun _ hx => close_inRange hx _ _
  · exact hq

end Search

/-! ## Scans keep readings in range (R105 to R108, R111) -/

section Scan
variable {ctx : Ctx} {h : Half}

/-- Scanner and search alone are changed, by values in range. -/
theorem readingLaw_scanner (hh : h.readingLaw = true) {x : Scanner} (hx : h.scan.inRange → x.inRange) :
    Half.readingLaw { h with scan := x } = true := readingLaw_update (h := h) hh hx id rfl rfl

theorem record_readingLaw (hh : h.readingLaw = true) {r : Reading} (hr : r.inRange) : (h.record r).readingLaw = true :=
  readingLaw_scanner hh fun _ => ⟨rfl, hr⟩

theorem searchReading_readingLaw (hh : h.readingLaw = true) {r : Fom} (hr : fomOk r = true) :
    (h.searchReading ctx r).half.readingLaw = true := by
  have only := searchReading_searchOnly ctx h r
  have search := fun hq => searchReading_inRange (ctx := ctx) (h := h) hq hr
  unfold SearchOnly at only
  rw [only]
  exact readingLaw_update (h := h) hh id search rfl rfl

theorem watchReading_readingLaw (hh : h.readingLaw = true) (r : Fom) :
    (h.watchReading ctx r).half.readingLaw = true := by
  unfold Half.watchReading
  split <;> exact hh

theorem handReading_readingLaw (hh : h.readingLaw = true) (o : Origin) {r : Fom} (hr : fomOk r = true) :
    (h.handReading ctx o r).half.readingLaw = true := by
  cases o with
  | search => exact searchReading_readingLaw hh hr
  | watch => exact watchReading_readingLaw hh r
  | action => exact hh

theorem startScan_readingLaw (hh : h.readingLaw = true) (o : Origin) : (h.startScan ctx o).half.readingLaw = true := by
  unfold Half.startScan
  split
  · exact readingLaw_scanner hh fun hx => hx.with (scanOk_start o) _ _
  · exact handReading_readingLaw (record_readingLaw hh (noReading_inRange o)) o fomOk_none

theorem startWaiting_readingLaw (hh : h.readingLaw = true) : (h.startWaiting ctx).half.readingLaw = true := by
  unfold Half.startWaiting
  split
  · dsimp only
    split
    · exact startScan_readingLaw (h := { h with scan := { h.scan with waiting := false } }) hh _
    · exact hh
  · exact hh

theorem endScan_readingLaw (hh : h.readingLaw = true) (o : Origin) {r : Reading} (hr : r.inRange) :
    (h.endScan ctx o r).half.readingLaw = true := by
  have handed := handReading_readingLaw (ctx := ctx) (record_readingLaw hh hr) o hr.2
  unfold Half.endScan Out.andThen
  split
  · exact handed
  · exact startWaiting_readingLaw handed

theorem scanLosesLock_readingLaw (hh : h.readingLaw = true) : (h.scanLosesLock ctx).half.readingLaw = true := by
  unfold Half.scanLosesLock
  split
  · exact endScan_readingLaw hh _ (noReading_inRange _)
  · exact hh

theorem requestSearchScan_readingLaw (hh : h.readingLaw = true) :
    (h.requestSearchScan ctx).half.readingLaw = true := by
  unfold Half.requestSearchScan
  split
  · exact hh
  · exact startScan_readingLaw hh _

theorem requestWatchScan_readingLaw (hh : h.readingLaw = true) : (h.requestWatchScan ctx).half.readingLaw = true := by
  unfold Half.requestWatchScan
  split
  · exact hh
  · exact startScan_readingLaw hh _

/-- An edge at 31 at most ends: the next begins, or the reading is complete (R105 to R107). -/
theorem endEdge_readingLaw (hh : h.readingLaw = true) {sc : Scan} {v : Nat} (hs : ∀ e ∈ sc.edges, e ≤ 31)
    (hv : v ≤ 31) : (h.endEdge ctx sc v).half.readingLaw = true := by
  have edges : ∀ e ∈ sc.edges ++ [v], e ≤ 31 := by
    intro e he
    rcases List.mem_append.mp he with he | he
    · exact hs e he
    · exact List.mem_singleton.mp he ▸ hv
  unfold Half.endEdge
  dsimp only
  split
  · next short =>
    have next : scanOk (some ⟨sc.origin, 1, sc.edges ++ [v]⟩) = true :=
      scanOk_some.mpr ⟨Nat.le_of_lt_succ short, edges, Nat.le_refl 1, Nat.le_add_left 1 30⟩
    exact readingLaw_scanner hh fun hx => hx.with next _ _
  · exact endScan_readingLaw hh _ ⟨edges, fomOk_some.mpr (figureOfMerit_le edges)⟩

theorem windowEnd_readingLaw (hh : h.readingLaw = true) (n : Nat) : (h.windowEnd ctx n).half.readingLaw = true := by
  obtain ⟨⟨flying, -⟩, -⟩ := (readingLaw_iff h).mp hh
  unfold Half.windowEnd
  split
  · exact hh
  · next sc e =>
    obtain ⟨short, edges, low, high⟩ := scanOk_some.mp (e ▸ flying)
    split
    · exact endEdge_readingLaw hh edges (by omega)
    · split
      · next room =>
        have next : scanOk (some { sc with offset := sc.offset + 1 }) = true :=
          scanOk_some.mpr ⟨short, edges, Nat.le_add_left 1 _, room⟩
        exact readingLaw_scanner hh fun hx => hx.with next _ _
      · exact endEdge_readingLaw hh edges high

end Scan

/-! ## A good frame keeps readings in range (R35, R98, R115) -/

section Frame
variable {ctx : Ctx} {h : Half}

/-- A search that begins has no reading yet (R115). -/
theorem startSearch_inRange (h : Half) : (h.startSearch ctx).search.inRange := by
  unfold Half.startSearch
  rw [hand_search]
  exact ⟨rfl, rfl⟩

theorem startSearch_readingLaw (hh : h.readingLaw = true) : (h.startSearch ctx).readingLaw = true := by
  have only := startSearch_searchOnly ctx h
  have search := startSearch_inRange (ctx := ctx) h
  unfold SearchOnly at only
  rw [only]
  exact readingLaw_update (h := h) hh id (fun _ => search) rfl rfl

theorem takeSession_readingLaw (hh : h.readingLaw = true) (f : Frame) : (h.takeSession ctx f).readingLaw = true := by
  unfold Half.takeSession
  split
  · exact hh
  · exact startSearch_readingLaw (h := { h with seg := _ }) hh
  · split <;> exact hh
  · split
    · exact hh
    · exact startSearch_readingLaw (h := { h with seg := _, resp := _, req := _ }) hh

theorem takeSync_readingLaw (hh : h.readingLaw = true) (f : Frame) : (h.takeSync f).readingLaw = true := by
  unfold Half.takeSync Half.synchronise
  split
  · dsimp only
    split <;> exact hh
  · exact hh

theorem takeReply_readingLaw (hh : h.readingLaw = true) (f : Frame) :
    (h.takeReply ctx f).half.readingLaw = true := by
  unfold Half.takeReply
  split
  · have only := answered_searchOnly ctx { h with req := { h.req with
      outstanding := none, tReply := none, lastReply := f.reply?.map fun t => (t, f.outcome) } } f.outcome
    have search := fun hq => answered_inRange (ctx := ctx) (h := { h with req := { h.req with
      outstanding := none, tReply := none, lastReply := f.reply?.map fun t => (t, f.outcome) } }) hq f.outcome
    unfold SearchOnly at only
    rw [only]
    exact readingLaw_update (h := h) hh id search rfl rfl
  · exact hh

theorem takeRequest_readingLaw (hh : h.readingLaw = true) (f : Frame) : (h.takeRequest f).readingLaw = true := by
  rw [takeRequest_served]
  exact hh

theorem takeReady_readingLaw (hh : h.readingLaw = true) (f : Frame) : (h.takeReady f).readingLaw = true := by
  unfold Half.takeReady
  split <;> exact hh

/-- DONE makes the reference the final figure of merit (R126). -/
theorem tryDone_readingLaw (hh : h.readingLaw = true) : h.tryDone.readingLaw = true := by
  unfold Half.tryDone
  split
  · obtain ⟨scan, search, -, baseline⟩ := (readingLaw_iff h).mp hh
    exact (readingLaw_iff _).mpr ⟨scan, search, search.1, baseline⟩
  · exact hh

theorem takeFrame_readingLaw (hh : h.readingLaw = true) (f : Frame) : (h.takeFrame ctx f).half.readingLaw = true := by
  have replied := takeReply_readingLaw (ctx := ctx)
    (takeSync_readingLaw (takeSession_readingLaw (ctx := ctx) hh f) f) f
  have ready := takeReady_readingLaw (takeRequest_readingLaw replied f) f
  exact tryDone_readingLaw (h := Half.takeEcho _ f) ready

end Frame

/-! ## Every step keeps readings in range -/

theorem scanOk_filter {x : Option Scan} (p : Scan → Bool) (h : scanOk x = true) : scanOk (x.filter p) = true := by
  cases x with
  | none => rfl
  | some sc =>
    rw [Option.filter_some]
    split
    · exact h
    · rfl

theorem setIdle_readingLaw {h : Half} (hh : h.readingLaw = true) : h.setIdle.readingLaw = true := by
  rw [setIdle_eq]
  exact readingLaw_update (h := h) hh (fun hx => hx.with (scanOk_filter _ hx.1) _ _) id rfl rfl

/-- Each rewriting of a side keeps its readings in range. -/
theorem readingLaw_invariant : SideInvariant fun h => h.readingLaw = true where
  reset := by decide
  change {ctx l h h'} hh e := by
    cases e with
    | startRelock =>
      unfold Half.startRelock
      split <;> exact hh
    | measure _ _ _ => exact startScan_readingLaw hh .action
    | stopRelock | stopAcquire | stopTune | stopReply | badFrame | suspect | setting => exact hh
  event {ctx l h o} hh e := by
    cases e with
    | lockLost => exact scanLosesLock_readingLaw hh
    | frame f _ _ => exact takeFrame_readingLaw hh f
    | settled _ => exact requestSearchScan_readingLaw (h := h.stopSettle) hh
    | watched _ => exact requestWatchScan_readingLaw hh
    | window n _ => exact windowEnd_readingLaw hh n
  fails _ hh := hh
  idle hh := setIdle_readingLaw hh
  detect {h} n hh := readingLaw_update (h := h) hh id (fun _ => ⟨rfl, rfl⟩) rfl rfl
  restarted {h} n _ := (readingLaw_iff _).mpr ⟨⟨rfl, edges_zero, rfl⟩, ⟨rfl, rfl⟩, rfl, rfl⟩
  loaded n hh := hh
  abandoned {h} o hh := by
    rw [abandon_eq]
    exact readingLaw_scanner hh fun hx => hx.with (scanOk_filter _ hx.1) _ _
  abandonedAll {h} hh := readingLaw_scanner hh fun hx => hx.with (f := none) rfl _ _
  carries {h} hh := by
    obtain ⟨scan, search, final, -⟩ := (readingLaw_iff h).mp hh
    exact (readingLaw_iff _).mpr ⟨scan, search, final, final⟩
  cleared hh := hh

/-- Settles O47: the formula over edges in range, the law at every rewriting of a side, and the comparison by its bounds. -/
theorem figuresOfMeritFollowTheirFormulaAndOrder : Obligations.FiguresOfMeritFollowTheirFormulaAndOrder := by
  refine ⟨fun a b c d e f => ⟨rfl, figureOfMerit_le fun x hx => ?_⟩, by decide, by decide, by decide, rfl,
    fun f hf => ?_, fun s t hs h i => ?_, fun hyst x => ⟨compareReadings_unordered (.inl rfl),
      compareReadings_unordered (.inr rfl)⟩, fun hyst new ref => ⟨?_, ?_, ?_⟩, by decide, by decide, by decide,
    fun new ref => ?_⟩
  · simp only [List.mem_cons, List.not_mem_nil, or_false] at hx
    omega
  · show f ≠ 255
    omega
  · exact readingLaw_invariant.step (fun i => ⟨(hs i).1, (hs i).2⟩) h i
  · rw [compareReadings_equal_iff]
    omega
  · rw [compareReadings_better_iff]
    omega
  · rw [compareReadings_worse_iff]
    omega
  · rw [compareReadings_equal_iff]
    omega

end Sys2Proof.Machine
end

section
/-! SUPPORT. Scans that end by a window or by a loss of lock, and what their reading comes to (R104 to R108, R117, R121, R135
to R139). -/

namespace Sys2Proof.Machine

/-! ## What the lane makes of a scan -/

section Lane
variable {s : State} {i : LaneId} {d : Side}

/-- In a lane whose segments are as its state allows, a side that keeps its segment state is stored. -/
theorem applyOut_ok {x : Half} (hl : (s.lane i).segmentLaw = true) (hs : x.seg.state = (s.half i d).seg.state) :
    s.applyOut i d (Out.ok x) = s.setLane i ((s.lane i).setHalf d x) := by
  rw [applyOut_steady hl rfl hs, Lane.took_ok]

/-- In CARRY an event that fails no segment is stored, with a retrain request that it makes (R139). -/
theorem applyOut_carry {o : Out} (hc : (s.lane i).state = .carry) (hf : o.fail = none) :
    s.applyOut i d o = s.setLane i ((s.lane i).took d o) := by
  refine applyOut_stored hf (fun c => ?_) fun c => ?_
  · rw [hc] at c
    exact nomatch c.1
  · rw [Lane.readyDue, Lane.took_state, hc] at c
    exact nomatch c.1

/-- In TRAIN a side in EXCHANGE is stored. -/
theorem applyOut_training {x : Half} (ht : (s.lane i).state = .train) (hs : x.seg.state = .exchange) :
    s.applyOut i d (Out.ok x) = s.setLane i ((s.lane i).setHalf d x) := by
  rw [applyOut_exchange hs (.inl ht), ← ht, ← Lane.setHalf_state (s.lane i) d x]

/-- A scanner without a scan or a request stays as an event leaves it, whatever the lane makes of the event (R39). -/
theorem applyOut_scanner {o : Out} (hl : (s.lane i).segmentLaw = true)
    (hs : o.half.seg.state = (s.half i d).seg.state) (hn : o.half.scan.inFlight = none)
    (hw : o.half.scan.waiting = false) : ((s.applyOut i d o).half i d).scan = o.half.scan := by
  have took : ((s.lane i).took d o).half d = o.half := (Lane.took_half _ d d o).trans (if_pos rfl)
  have stored : ∀ l, s.applyOut i d o = s.setLane i l → (s.applyOut i d o).half i d = l.half d := fun l e => by
    rw [e, State.half, State.lane_setLane_self]
  rcases applyOut_eq s i d o with ⟨r, -, -, -, e⟩ | ⟨r, -, -, e⟩ | ⟨hf, -⟩
  · change _ = s.setLane i (((s.lane i).took d o).fail d r) at e
    rw [stored _ e, Lane.fail_half, if_pos rfl, took, setIdle_eq]
    dsimp only
    rw [hn, Option.filter_none, ← hn, ← hw]
  · change _ = s.setLane i ((s.lane i).took d o) at e
    rw [stored _ e, took]
  · rw [stored _ (applyOut_steady hl hf hs), took]

end Lane

/-! ## The end of a scan (R104, R107) -/

section EndOfScan
variable {ctx : Ctx} {h : Half}

/-- A request that waits is discarded outside EXCHANGE (R104). -/
theorem startWaiting_discards (hs : ¬ (h.scan.waiting = true ∧ h.seg.state = .exchange)) :
    h.startWaiting ctx = Out.ok { h with scan := { h.scan with waiting := false } } := by
  by_cases hx : h.seg.state = .exchange
  · have idle : h.scan.waiting = false := Bool.eq_false_iff.mpr fun hw => hs ⟨hw, hx⟩
    unfold Half.startWaiting
    rw [if_neg (by rw [idle]; nofun), ← idle]
  · exact startWaiting_idle ctx hx

/-- A request that waits starts in EXCHANGE (R104). -/
theorem startWaiting_starts (hs : h.scan.waiting = true ∧ h.seg.state = .exchange) :
    h.startWaiting ctx = Half.startScan ctx { h with scan := { h.scan with waiting := false } } .search := by
  unfold Half.startWaiting
  rw [if_pos hs.1]
  exact if_pos hs.2

/-- The scanner once a scan has ended with a reading at a receiver with lock: a search request that waited starts in
EXCHANGE and is discarded otherwise (R104, R107). -/
def Half.scannerAfter (h : Half) (r : Reading) : Scanner :=
  { inFlight := if h.scan.waiting = true ∧ h.seg.state = .exchange then some ⟨.search, 1, []⟩ else none
    waiting := false
    last := r
    count := satInc counterMax h.scan.count }

/-- A scan ends, and what takes its reading fails no segment: the request that waits follows (R104, R107). -/
theorem endScan_taken {o : Origin} {r : Reading} {x : Half} {retrain : Bool}
    (hr : (h.record r).handReading ctx o r.fom = ⟨x, none, retrain⟩) : h.endScan ctx o r =
      ⟨(x.startWaiting ctx).half, (x.startWaiting ctx).fail, retrain || (x.startWaiting ctx).retrain⟩ := by
  unfold Half.endScan
  rw [hr]
  rfl

/-- The same where nothing fails the segment. -/
theorem endScan_settled {o : Origin} {r : Reading} {x y : Half} {retrain : Bool}
    (hr : (h.record r).handReading ctx o r.fom = ⟨x, none, retrain⟩) (hw : x.startWaiting ctx = Out.ok y) :
    h.endScan ctx o r = ⟨y, none, retrain⟩ := by
  rw [endScan_taken hr, hw]
  exact congrArg (Out.mk y none) (Bool.or_false retrain)

/-- The same at a receiver with lock, where what takes the reading leaves the scanner alone. -/
theorem endScan_read {o : Origin} {r : Reading} {x : Half} {retrain : Bool} (hl : ctx.locked = true)
    (hr : (h.record r).handReading ctx o r.fom = ⟨x, none, retrain⟩) (hx : x.scan = (h.record r).scan)
    (hs : x.seg.state = h.seg.state) :
    h.endScan ctx o r = ⟨{ x with scan := h.scannerAfter r }, none, retrain⟩ := by
  have next : x.startWaiting ctx = Out.ok { x with scan := h.scannerAfter r } := by
    by_cases hw : h.scan.waiting = true ∧ h.seg.state = .exchange
    · rw [startWaiting_starts (by rwa [hx, hs])]
      unfold Half.startScan Half.scannerAfter
      rw [if_pos hl, if_pos hw, hx]
      rfl
    · rw [startWaiting_discards (by rwa [hx, hs])]
      unfold Half.scannerAfter
      rw [if_neg hw, hx]
      rfl
  exact endScan_settled hr next

/-! ## The end of a window (R105 to R107) -/

variable {sc : Scan}

/-- The window passes, and the edge goes on at the next offset (R105). -/
theorem windowEnd_passes {count : Nat} (hf : h.scan.inFlight = some sc) (hc : count ≤ 3) (ho : sc.offset < 31) :
    h.windowEnd ctx count = Out.ok
      { h with scan := { h.scan with inFlight := some ⟨sc.origin, sc.offset + 1, sc.edges⟩ } } := by
  unfold Half.windowEnd
  rw [hf]
  exact (if_neg (Nat.not_lt.mpr hc)).trans (if_pos ho)

/-- The window ends its edge with the value `v`: it fails at the offset behind `v`, or passes at the last one (R105). -/
theorem windowEnd_endsEdge {count v : Nat} (hf : h.scan.inFlight = some sc)
    (hv : 4 ≤ count ∧ v = sc.offset - 1 ∨ count ≤ 3 ∧ 31 ≤ sc.offset ∧ v = sc.offset) :
    h.windowEnd ctx count = h.endEdge ctx sc v := by
  unfold Half.windowEnd
  rw [hf]
  rcases hv with ⟨hc, e⟩ | ⟨hc, ho, e⟩ <;> rw [e]
  · exact if_pos hc
  · exact (if_neg (Nat.not_lt.mpr hc)).trans (if_neg (Nat.not_lt.mpr ho))

theorem endEdge_nextEdge (hl : sc.edges.length < 5) (v : Nat) : h.endEdge ctx sc v = Out.ok
    { h with scan := { h.scan with inFlight := some ⟨sc.origin, 1, sc.edges ++ [v]⟩ } } :=
  if_pos (by rw [List.length_append]; exact Nat.succ_lt_succ hl)

/-- The reading of a scan whose six edges have ended (R107, R111). -/
def Scan.reading (sc : Scan) (v : Nat) : Reading :=
  ⟨some sc.origin, sc.edges ++ [v], some (figureOfMerit (sc.edges ++ [v]))⟩

theorem endEdge_completes (hl : 5 ≤ sc.edges.length) (v : Nat) :
    h.endEdge ctx sc v = h.endScan ctx sc.origin (sc.reading v) :=
  if_neg (by rw [List.length_append]; exact Nat.not_lt.mpr (Nat.succ_le_succ hl))

theorem scanWindowEnd_eq {s : State} {i : LaneId} {d : Side} (count : Nat) (hf : (s.half i d).scan.inFlight = some sc)
    (hl : s.locked i d = true) : exec (.scanWindowEnd i d count) s =
      .next (engineEvent s (s.applyOut i d ((s.half i d).windowEnd (s.ctx i d) count))) := by
  show execScanWindowEnd i d count s = _
  exact if_pos ⟨by rw [hf]; rfl, hl⟩

end EndOfScan

/-- Settles O23: the window goes on, ends an edge, or ends the scan. -/
theorem scanWindowEndMovesTheScan : Obligations.ScanWindowEndMovesTheScan := by
  intro s i d count sc hf hk hlaw
  refine ⟨_, scanWindowEnd_eq count hf hk, fun hc ho => ?_, fun v hv => ⟨fun hl => ?_, fun hl ho => ?_⟩⟩ <;>
    rw [engineEvent_quiet]
  · rw [windowEnd_passes hf hc ho]
    exact congrArg State.quiet (applyOut_ok hlaw (by rfl))
  · rw [windowEnd_endsEdge hf hv, endEdge_nextEdge hl]
    exact congrArg State.quiet (applyOut_ok hlaw (by rfl))
  · have ended : (s.half i d).endScan (s.ctx i d) .action (sc.reading v) =
        Out.ok { s.half i d with scan := (s.half i d).scannerAfter (sc.reading v) } :=
      endScan_read (x := (s.half i d).record (sc.reading v)) hk rfl rfl rfl
    rw [windowEnd_endsEdge hf hv, endEdge_completes hl, ho, ended, ← ho]
    exact congrArg State.quiet (applyOut_ok hlaw (by rfl))

/-! ## The Margin Watch's judgement (R135 to R139) -/

section Watch
variable {ctx : Ctx} {h : Half}

/-- An alarm reading: the flag, the alarms and the count, and perhaps a retrain request (R136, R138, R139). -/
theorem watchReading_alarm {r : Fom} (ha : alarmReading ctx.dDrop h.watch.baseline r = true) :
    h.watchReading ctx r = ⟨{ h with
      watch := ⟨h.watch.baseline, true, satInc lowMax h.watch.low⟩, watchAlarms := satInc counterMax h.watchAlarms },
      none, ctx.autoRetrain && decide (ctx.kAlarm ≤ satInc lowMax h.watch.low)⟩ := if_pos ha

/-- Any other sets the count to 0 (R137). -/
theorem watchReading_noAlarm {r : Fom} (ha : alarmReading ctx.dDrop h.watch.baseline r = false) :
    h.watchReading ctx r = Out.ok { h with watch := { h.watch with low := 0 } } := if_neg (by rw [ha]; nofun)

theorem alarmReading_some (drop b f : Nat) : alarmReading drop (some b) (some f) = decide (f + drop ≤ b) := rfl

end Watch

/-- Settles O24, by the origin of the scan. -/
theorem completedScansReachTheirEngine : Obligations.CompletedScansReachTheirEngine := by
  intro s i d count sc v hf hk hl hv h edges f next scanner low
  have ended : (s.half i d).windowEnd (s.ctx i d) count = h.endScan (s.ctx i d) sc.origin (sc.reading v) :=
    (windowEnd_endsEdge hf hv).trans (endEdge_completes hl v)
  have read : ∀ {o : Origin} {x : Half} {retrain : Bool},
      (h.record (sc.reading v)).handReading (s.ctx i d) o (some f) = ⟨x, none, retrain⟩ →
      x.scan = (h.record (sc.reading v)).scan → x.seg.state = h.seg.state →
      h.endScan (s.ctx i d) o (sc.reading v) = ⟨{ x with scan := scanner }, none, retrain⟩ := endScan_read hk
  refine ⟨_, scanWindowEnd_eq count hf hk, fun b ho hc hb => ⟨fun ha => ?_, fun ha => ?_⟩,
    fun ho ht hx hs => ⟨fun hp => ?_, fun g hp hg => ⟨fun hb => ?_, fun hb => ?_⟩⟩⟩ <;>
    rw [engineEvent_quiet, ended, ho]
  · have alarm := watchReading_alarm (ctx := s.ctx i d) (h := h.record (sc.reading v)) (r := some f) (by
      rw [show (h.record (sc.reading v)).watch.baseline = some b from hb]
      exact decide_eq_true ha)
    rw [read (o := .watch) alarm rfl rfl, ← hb]
    exact congrArg State.quiet (applyOut_carry hc rfl)
  · have noAlarm := watchReading_noAlarm (ctx := s.ctx i d) (h := h.record (sc.reading v)) (r := some f) (by
      rw [show (h.record (sc.reading v)).watch.baseline = some b from hb]
      exact decide_eq_false (Nat.not_le.mpr ha))
    rw [read (o := .watch) noAlarm rfl rfl]
    exact congrArg State.quiet ((applyOut_carry hc rfl).trans (congrArg (s.setLane i) (Lane.took_ok _ _ _)))
  · have first := searchReading_reference (ctx := s.ctx i d) (h := h.record (sc.reading v)) hs hp f
    rw [read (o := .search) first rfl rfl]
    exact congrArg State.quiet (applyOut_training ht hx)
  · have better := searchReading_better (ctx := s.ctx i d) (h := h.record (sc.reading v)) hs hp hg hb
    rw [read (o := .search) better rfl rfl]
    exact congrArg State.quiet (applyOut_training ht hx)
  · have notBetter := searchReading_notBetter (ctx := s.ctx i d) (h := h.record (sc.reading v)) hs hp hg hb
    rw [read (o := .search) notBetter rfl rfl]
    exact congrArg State.quiet (applyOut_training ht hx)

/-! ## Scans that end by a loss of lock (R104, R108) -/

section LostScan
variable {ctx : Ctx} {h : Half} {sc : Scan}

theorem scanLosesLock_ends (hn : h.scan.inFlight = some sc) :
    h.scanLosesLock ctx = h.endScan ctx sc.origin (Reading.noReading sc.origin) := by
  unfold Half.scanLosesLock
  rw [hn]

/-- The reading of an ACTION scan is handed to no engine (R107). -/
theorem endScan_action (h : Half) (r : Reading) : h.endScan ctx .action r = (h.record r).startWaiting ctx := by
  rw [endScan_taken (x := h.record r) rfl]
  exact congrArg (Out.mk _ _) (Bool.false_or _)

/-- An ACTION scan ends with NO READING, and no search request starts (R104, R108). -/
theorem scanLosesLock_notSearching (hn : h.scan.inFlight = some sc) (ho : sc.origin = .action)
    (hs : ¬ (h.scan.waiting = true ∧ h.seg.state = .exchange)) : h.scanLosesLock ctx = Out.ok { h with
      scan := ⟨none, false, Reading.noReading .action, satInc counterMax h.scan.count⟩ } := by
  rw [scanLosesLock_ends hn, ho, endScan_action]
  exact startWaiting_discards hs

theorem SearchOnly.scan {h h' : Half} (e : SearchOnly h h') : h'.scan = h.scan := by
  unfold SearchOnly at e
  rw [e]

/-- An ACTION scan ends with NO READING, and so does the SEARCH scan that waited for it (R104, R108). -/
theorem scanLosesLock_searching (hl : ctx.locked = false) (hn : h.scan.inFlight = some sc) (ho : sc.origin = .action)
    (hs : h.scan.waiting = true ∧ h.seg.state = .exchange) : (h.scanLosesLock ctx).half.scan =
      ⟨none, false, Reading.noReading .search, satInc counterMax (satInc counterMax h.scan.count)⟩ := by
  rw [scanLosesLock_ends hn, ho, endScan_action, startWaiting_starts (h := h.record _) hs]
  unfold Half.startScan
  rw [if_neg (by rw [hl]; nofun)]
  exact (searchReading_searchOnly ctx _ none).scan

/-- A SEARCH scan ends with NO READING, whether or not that fails the segment (R108, R117, R124). -/
theorem scanLosesLock_search (hn : h.scan.inFlight = some sc) (ho : sc.origin = .search)
    (hw : h.scan.waiting = false) : (h.scanLosesLock ctx).half.scan =
      ⟨none, false, Reading.noReading .search, satInc counterMax h.scan.count⟩ := by
  have scan : (Half.searchReading ctx (h.record (Reading.noReading .search)) none).half.scan =
      ⟨none, false, Reading.noReading .search, satInc counterMax h.scan.count⟩ := by
    rw [(searchReading_searchOnly ctx _ none).scan, ← hw]
    rfl
  rw [scanLosesLock_ends hn, ho]
  unfold Half.endScan Out.andThen
  split
  · exact scan
  · refine (congrArg (fun o : Out => o.half.scan) (startWaiting_discards fun c => ?_)).trans ?_
    · exact Bool.false_ne_true ((congrArg Scanner.waiting scan).symm.trans c.1)
    · exact congrArg (fun x : Scanner => { x with waiting := false }) scan

/-- The side of a WATCH scan that has ended with NO READING, an alarm reading (R108, R136, R138). -/
def Half.watchLost (h : Half) : Half :=
  { h with
    scan := ⟨none, false, Reading.noReading .watch, satInc counterMax h.scan.count⟩
    watch := ⟨h.watch.baseline, true, satInc lowMax h.watch.low⟩
    watchAlarms := satInc counterMax h.watchAlarms }

/-- The watch may request a retrain, and a search request that waited is discarded outside EXCHANGE (R104, R139). -/
theorem scanLosesLock_watch (hn : h.scan.inFlight = some sc) (ho : sc.origin = .watch) (hs : h.seg.state ≠ .exchange) :
    h.scanLosesLock ctx =
      ⟨h.watchLost, none, ctx.autoRetrain && decide (ctx.kAlarm ≤ satInc lowMax h.watch.low)⟩ := by
  have alarm := watchReading_alarm (ctx := ctx) (h := h.record (Reading.noReading .watch)) (r := none) rfl
  rw [scanLosesLock_ends hn, ho]
  exact endScan_settled (o := .watch) alarm (startWaiting_idle ctx hs)

end LostScan

/-! ## LOCK_LOST, LOCK_REGAINED and SIGNAL_PRESENT (R33, R36) -/

/-- The side with T_relock started (R36). -/
def Half.relocks (h : Half) : Half := { h with seg := { h.seg with tRelock := some 2 } }

theorem startRelock_watching {h : Half} (hs : h.seg.state = .exchange ∨ h.seg.state = .done) :
    h.startRelock = h.relocks := if_pos (by rcases hs with e | e <;> rw [e] <;> rfl)

theorem setLane_setLane (s : State) (i : LaneId) (l m : Lane) : (s.setLane i l).setLane i m = s.setLane i m := by
  simp only [State.setLane, Tab.set_set]

/-- The part once a receiver has lost lock and T_relock has started at the segment on it, before a scan ends (R36). -/
def State.relocking (s : State) (r : Receiver) (i : LaneId) (d : Side) : State :=
  (s.setRx r { s.rx r with lock := false }).modifyHalf i d Half.relocks

section Relock
variable {s : State} {r : Receiver} {i : LaneId} {d : Side}

theorem relocking_lane : (s.relocking r i d).lane i = (s.lane i).setHalf d (s.half i d).relocks := by
  unfold State.relocking
  rw [modifyHalf_lane, State.lane_setRx, State.half_setRx]

theorem relocking_half : (s.relocking r i d).half i d = (s.half i d).relocks := by
  rw [State.half, relocking_lane, Lane.half_setHalf_self]

theorem relocking_setLane (l : Lane) :
    (s.relocking r i d).setLane i l = (s.setRx r { s.rx r with lock := false }).setLane i l :=
  setLane_setLane _ i _ l

theorem relocking_onlyLane : onlyLane s (s.relocking r i d) i :=
  (setRx_onlyLane s r _ i).trans (onlyLane_setLane _ i _)

theorem relocking_segmentLaw (hl : (s.lane i).segmentLaw = true) : ((s.relocking r i d).lane i).segmentLaw = true := by
  rw [relocking_lane]
  refine segmentLaw_congr hl (Lane.setHalf_state _ _ _) fun e => ?_
  rw [Lane.half_setHalf]
  split
  · next he => rw [he]; rfl
  · rfl

/-- The segment on the pair finds its receiver without lock (R9). -/
theorem relocking_locked (hst : s.standing r = some (i, d)) : (s.relocking r i d).locked i d = false := by
  cases r with
  | cPair j =>
    cases hst
    exact congrArg RxLine.lock (Tab.get_set_self s.cRx i _)
  | sPair p =>
    obtain ⟨j, hj, e⟩ := Option.map_eq_some_iff.mp hst
    cases e
    have stands : (s.lane i).sPair = some p := by simpa using List.find?_some hj
    have pair : ((s.relocking (.sPair p) i .S).lane i).sPair = some p := by
      rw [relocking_lane, Lane.setHalf_sPair, stands]
    unfold State.locked
    rw [pair]
    exact congrArg RxLine.lock (Tab.get_set_self s.sRx p _)

theorem relocking_stores {x : Half} (hl : (s.lane i).segmentLaw = true) (hs : x.seg.state = (s.half i d).seg.state) :
    (s.relocking r i d).applyOut i d (Out.ok x) =
      (s.setRx r { s.rx r with lock := false }).setLane i ((s.lane i).setHalf d x) := by
  rw [applyOut_ok (relocking_segmentLaw hl) (by rw [relocking_half]; exact hs), relocking_lane, Lane.setHalf_setHalf,
    relocking_setLane]

/-- What the watch reads at an alarm is not the receiver's (R131, R139). -/
theorem relocking_ctx : ((s.relocking r i d).ctx i d).autoRetrain = (s.legConfig i).autoRetrain ∧
    ((s.relocking r i d).ctx i d).kAlarm = s.kAlarm := by
  cases r <;> exact ⟨rfl, rfl⟩

theorem lockLost_relocking (hr : (s.rx r).lock = true) (hst : s.standing r = some (i, d))
    (hs : (s.half i d).seg.state = .exchange ∨ (s.half i d).seg.state = .done) : exec (.lockLost r) s =
      .next (engineEvent s ((s.relocking r i d).scanLosesLock i d)) := by
  have started : ((s.setRx r { s.rx r with lock := false }).half i d).startRelock =
      ((s.setRx r { s.rx r with lock := false }).half i d).relocks :=
    startRelock_watching (by rwa [State.half_setRx])
  rw [State.half] at started
  rw [lockLost_eq hr hst]
  unfold State.segmentLosesLock
  rw [started]
  rfl

theorem lockRegained_eq (hr : s.rx r = ⟨true, false⟩) : exec (.lockRegained r) s =
    .next (((s.standing r).map fun x => (s.setRx r ⟨true, true⟩).modifyHalf x.1 x.2 Half.stopRelock).getD
      (s.setRx r ⟨true, true⟩)) := by
  show execLockRegained r s = _
  unfold execLockRegained
  rw [hr, if_pos ⟨rfl, rfl⟩]
  dsimp only
  rw [State.standing_setRx]
  cases s.standing r <;> rfl

end Relock

/-- Settles O11, by the scan in flight and by the events of the receiver. -/
theorem lockLossAndReturnMoveRelock : Obligations.LockLossAndReturnMoveRelock := by
  intro r s
  refine ⟨fun i d hr hst hs hn hlaw => ?_, fun i d sc hr hst hs hn hlaw => ?_, fun i d hr hst => ?_, fun hr hst => ?_,
    fun hr => if_pos hr⟩
  · have free : ((s.relocking r i d).half i d).scan.inFlight = none := by rw [relocking_half]; exact hn
    have still : (s.relocking r i d).scanLosesLock i d = s.relocking r i d := by
      unfold State.scanLosesLock
      rw [← State.half, scanLosesLock_free _ free, applyOut_ok (relocking_segmentLaw hlaw) rfl, State.half,
        Lane.setHalf_half_self, State.setLane_lane_self]
    exact ⟨_, lockLost_relocking hr hst hs, by rw [engineEvent_quiet, still]; rfl⟩
  · have law := relocking_segmentLaw (r := r) (d := d) hlaw
    have half := relocking_half (s := s) (r := r) (i := i) (d := d)
    have flying : ((s.relocking r i d).half i d).scan.inFlight = some sc := by rw [half]; exact hn
    have kept := (scanLosesLock_scanOnly ((s.relocking r i d).ctx i d) ((s.relocking r i d).half i d)).state
    refine ⟨_, lockLost_relocking hr hst hs, fun ho hw => ?_, fun ho hw => ?_, fun ho hw => ?_⟩
    · have ended := scanLosesLock_notSearching (ctx := (s.relocking r i d).ctx i d) flying ho (by rw [half]; exact hw)
      unfold State.scanLosesLock
      rw [engineEvent_quiet, ← State.half, ended, half, State.modifyHalf, State.lane_setRx]
      exact congrArg State.quiet (relocking_stores hlaw (by rfl))
    · have scan := scanLosesLock_searching (ctx := (s.relocking r i d).ctx i d) (relocking_locked hst) flying ho
        (by rw [half]; exact hw)
      refine (applyOut_scanner law kept (by rw [scan]) (by rw [scan])).trans (scan.trans ?_)
      rw [half]
      rfl
    · have scan := scanLosesLock_search (ctx := (s.relocking r i d).ctx i d) flying ho (by rw [half]; exact hw)
      refine (applyOut_scanner law kept (by rw [scan]) (by rw [scan])).trans (scan.trans ?_)
      rw [half]
      rfl
  · rw [lockRegained_eq hr, hst]
    rfl
  · rw [lockRegained_eq hr, hst]
    rfl

theorem satInc_eq_min {max n : Nat} (h : n ≤ max) : satInc max n = min max (n + 1) := by
  unfold satInc
  split <;> omega

theorem Lane.setHalf_took (l : Lane) (d : Side) (x : Half) (o : Out) : (l.setHalf d x).took d o = l.took d o := by
  cases d <;> rfl

/-- A WATCH scan in CARRY whose receiver loses lock: the lane stores the alarm and the request (R36, R108, R136, R139). -/
theorem relocking_watch {s : State} {r : Receiver} {i : LaneId} {d : Side} {sc : Scan} (hc : (s.lane i).state = .carry)
    (hd : (s.half i d).seg.state = .done) (hn : (s.half i d).scan.inFlight = some sc) (ho : sc.origin = .watch) :
    (s.relocking r i d).scanLosesLock i d = (s.relocking r i d).setLane i ((s.lane i).took d
      ⟨(s.half i d).relocks.watchLost, none,
        (s.legConfig i).autoRetrain && decide (s.kAlarm ≤ satInc lowMax (s.half i d).watch.low)⟩) := by
  have half := relocking_half (s := s) (r := r) (i := i) (d := d)
  have carry : ((s.relocking r i d).lane i).state = .carry := by rw [relocking_lane, Lane.setHalf_state, hc]
  obtain ⟨auto, limit⟩ := relocking_ctx (s := s) (r := r) (i := i) (d := d)
  have alarm := scanLosesLock_watch (ctx := (s.relocking r i d).ctx i d) (h := (s.relocking r i d).half i d) (sc := sc)
    (by rw [half]; exact hn) ho (by rw [half]; exact fun e => nomatch hd.symm.trans e)
  rw [auto, limit, half] at alarm
  unfold State.scanLosesLock
  rw [← State.half, half, alarm, applyOut_carry carry rfl, relocking_lane, Lane.setHalf_took]
  rfl

/-- Settles O12: the scan ends with an alarm reading, which the lane stores in CARRY. -/
theorem lockLossDuringAWatchScanIsAnAlarm : Obligations.LockLossDuringAWatchScanIsAnAlarm := by
  intro r s i d sc hr hst hc hd hn ho hlow
  have exec := lockLost_relocking hr hst (.inr hd)
  have low : satInc lowMax (s.half i d).watch.low = min 15 ((s.half i d).watch.low + 1) := satInc_eq_min hlow
  rw [relocking_watch hc hd hn ho, low, relocking_setLane] at exec
  have lane := State.lane_setLane_self (s.setRx r { s.rx r with lock := false }) i ((s.lane i).took d
    ⟨(s.half i d).relocks.watchLost, none, (s.legConfig i).autoRetrain &&
      decide (s.kAlarm ≤ min 15 ((s.half i d).watch.low + 1))⟩)
  have half : ∀ e, State.half _ i e = _ := fun e => (congrArg (Lane.half · e) lane).trans (Lane.took_half _ d e _)
  have side := (half d).trans (if_pos rfl)
  refine ⟨_, exec, ?_, (setRx_onlyLane s r _ i).trans (onlyLane_setLane _ i _), congrArg (·.seg.tRelock) side,
    congrArg (·.scan.inFlight) side, congrArg (·.scan.last) side, congrArg (·.scan.count) side,
    (congrArg Half.watch side).trans ?_, congrArg Half.watchAlarms side, congrArg Lane.retrainRequested lane,
    (half _).trans (if_neg (Side.opposite_ne d)), ?_⟩
  · exact (congrArg Lane.state lane).trans ((Lane.took_state _ d _).trans hc)
  · show WatchRecord.mk _ true (satInc lowMax _) = _
    exact congrArg (WatchRecord.mk _ true) low
  · exact (engineEvent_offLanes _ _).trans (LanesOnly.setLane _ i _).offLanes

end Sys2Proof.Machine
end

section
/-! SUPPORT. MEASURE: an action whose lanes move alone, with outcomes that a scan in flight decides (R104, R108, R154). -/

namespace Sys2Proof.Machine

/-! ## Named lanes, each taken alone

An action by which no lane touches another (R11, R56): every named lane is still as it was when its bit is taken, so what
becomes of it and its outcome are read from the state before the action. A `LaneRule` asks that a pull-back leave the outcome
as it is; here the outcome may be decided by a scan in flight, which a pull-back ends. -/

/-- What a named lane becomes (`g`) and its outcome (`o`), while it is as it was before the action. -/
def TakenAlone (s : State) (p : PortId) (a : Action) (args : ActionArgs) (g : LaneId → Lane) (o : LaneId → LaneOutcome) : Prop :=
  ∀ t, ActionOnly p s t → ∀ i, t.lane i = s.lane i → laneOperation t p a args i = (t.setLane i (g i), o i)

/-- The lanes of a list are replaced. -/
def State.replaceLanes (s : State) (g : LaneId → Lane) (is : List LaneId) : State :=
  { s with lanes := Tab.ofFn fun j => if j ∈ is then g j else s.lane j }

/-- The per-lane outcomes once the bits of a list have been taken (R146, R147). -/
def takenOutcomes (s : State) (p : PortId) (args : ActionArgs) (o : LaneId → LaneOutcome) (bs : List (Fin 8)) :
    Tab 8 LaneOutcome :=
  Tab.ofFn fun b => if b ∈ bs ∧ args.mask.getLsbD b.val = true then (viewLane s p b).elim .notMapped o else .none

/-- The part once the bits of a list have been taken, with the request fields of the action stored (R143). -/
def State.withTaken (s : State) (p : PortId) (code : Byte) (args : ActionArgs) (g : LaneId → Lane)
    (o : LaneId → LaneOutcome) (bs : List (Fin 8)) : State :=
  (s.replaceLanes g (namedLanes s p args bs)).setPort p
    { s.port p with action := ⟨code, args, (s.port p).action.overall, takenOutcomes s p args o bs⟩ }

section Taken
variable {s : State} {p : PortId} {a : Action} {code : Byte} {args : ActionArgs} {g : LaneId → Lane}
  {o : LaneId → LaneOutcome} {bs : List (Fin 8)} {b : Fin 8}

@[simp] theorem replaceLanes_lane (s : State) (g : LaneId → Lane) (is : List LaneId) (j : LaneId) :
    (s.replaceLanes g is).lane j = if j ∈ is then g j else s.lane j := Tab.get_ofFn _ _

theorem replaceLanes_nil (s : State) (g : LaneId → Lane) : s.replaceLanes g [] = s := by
  have lanes : (s.replaceLanes g []).lanes = s.lanes := Tab.ext_get fun j => replaceLanes_lane s g [] j
  calc s.replaceLanes g [] = { s with lanes := (s.replaceLanes g []).lanes } := rfl
    _ = s := by rw [lanes]

theorem replaceLanes_snoc (s : State) (g : LaneId → Lane) (is : List LaneId) (i : LaneId) :
    s.replaceLanes g (is ++ [i]) = (s.replaceLanes g is).setLane i (g i) := by
  have lanes : (s.replaceLanes g (is ++ [i])).lanes = ((s.replaceLanes g is).setLane i (g i)).lanes :=
    Tab.ext_get fun j => by
      show (s.replaceLanes g (is ++ [i])).lane j = ((s.replaceLanes g is).setLane i (g i)).lane j
      rw [State.lane_setLane, replaceLanes_lane, replaceLanes_lane]
      by_cases h : j = i <;> simp [h]
  calc s.replaceLanes g (is ++ [i]) = { s with lanes := (s.replaceLanes g (is ++ [i])).lanes } := rfl
    _ = (s.replaceLanes g is).setLane i (g i) := by rw [lanes]; rfl

theorem replaceLanes_lanesOnly (s : State) (g : LaneId → Lane) (is : List LaneId) : LanesOnly s (s.replaceLanes g is) := rfl

theorem namedLanes_snoc (s : State) (p : PortId) (args : ActionArgs) (bs : List (Fin 8)) (b : Fin 8) :
    namedLanes s p args (bs ++ [b]) =
      namedLanes s p args bs ++ (if args.mask.getLsbD b.val = true then viewLane s p b else none).toList := by
  unfold namedLanes
  rw [List.filterMap_append, List.filterMap_cons, List.filterMap_nil]
  split
  · next h => rw [h]; rfl
  · next h => rw [h]; rfl

theorem takenOutcomes_named (hm : args.mask.getLsbD b.val = true) : takenOutcomes s p args o (bs ++ [b]) =
    (takenOutcomes s p args o bs).set b ((viewLane s p b).elim .notMapped o) := by
  apply Tab.ext_get
  intro c
  rw [Tab.get_set]
  unfold takenOutcomes
  rw [Tab.get_ofFn, Tab.get_ofFn]
  by_cases h : c = b
  · simp [h, hm]
  · simp [h]

theorem takenOutcomes_unnamed (hm : args.mask.getLsbD b.val = false) :
    takenOutcomes s p args o (bs ++ [b]) = takenOutcomes s p args o bs := by
  have named : ∀ c : Fin 8, args.mask.getLsbD c.val = true → c ≠ b := fun c hc e => by
    rw [e, hm] at hc
    cases hc
  have same : ∀ c, (c ∈ bs ++ [b] ∧ args.mask.getLsbD c.val = true) ↔ (c ∈ bs ∧ args.mask.getLsbD c.val = true) :=
    fun c => and_congr_left fun hc => by simp [named c hc]
  unfold takenOutcomes
  simp only [same]

theorem withTaken_nil (s : State) (p : PortId) (code : Byte) (args : ActionArgs) (g : LaneId → Lane)
    (o : LaneId → LaneOutcome) : s.withTaken p code args g o [] = s.readied p code args := by
  have none : takenOutcomes s p args o [] = Tab.fill 8 .none := Tab.ext_get fun b => by simp [takenOutcomes]
  unfold State.withTaken
  rw [none]
  exact congrArg (State.setPort · p _) (replaceLanes_nil s g)

theorem withTaken_actionOnly : ActionOnly p s (s.withTaken p code args g o bs) :=
  ((replaceLanes_lanesOnly s g _).actionOnly p).trans (ActionOnly.setPort p _ _ _)

theorem withTaken_port : (s.withTaken p code args g o bs).port p =
    { s.port p with action := ⟨code, args, (s.port p).action.overall, takenOutcomes s p args o bs⟩ } :=
  State.port_setPort_self _ _ _

/-- The lane of a bit that is not taken yet is as it was (R11). -/
theorem withTaken_lane (once : viewOnce s p) (hb : b ∉ bs) {i : LaneId} (hv : viewLane s p b = some i) :
    (s.withTaken p code args g o bs).lane i = s.lane i := by
  refine (replaceLanes_lane s g _ i).trans (if_neg fun c => ?_)
  obtain ⟨c, hc, -, hvc⟩ := mem_namedLanes.mp c
  exact hb (once c b i hvc hv ▸ hc)

/-- One bit more is taken. -/
theorem takeLane_withTaken (rule : TakenAlone s p a args g o) (once : viewOnce s p) (hb : b ∉ bs) :
    takeLane p a 0 (s.withTaken p code args g o bs) b = s.withTaken p code args g o (bs ++ [b]) := by
  have hargs : ((s.withTaken p code args g o bs).port p).action.args = args := by rw [withTaken_port]
  cases hm : args.mask.getLsbD b.val with
  | false =>
    rw [takeLane_unnamed hargs hm]
    unfold State.withTaken
    rw [takenOutcomes_unnamed hm, namedLanes_snoc, hm]
    simp
  | true =>
    have outcome : ∀ (u : State) (x : LaneOutcome), (u.setPort p { s.port p with
        action := ⟨code, args, (s.port p).action.overall, takenOutcomes s p args o bs⟩ }).setOutcome p b x =
          u.setPort p { s.port p with
            action := ⟨code, args, (s.port p).action.overall, (takenOutcomes s p args o bs).set b x⟩ } := fun u x => by
      unfold State.setOutcome State.setAction
      rw [State.port_setPort_self, setPort_setPort]
    unfold takeLane
    dsimp only
    rw [hargs, if_neg (by rw [hm]; nofun), withTaken_actionOnly.viewLane]
    cases hv : viewLane s p b with
    | none =>
      refine (outcome _ _).trans ?_
      unfold State.withTaken
      rw [takenOutcomes_named hm, namedLanes_snoc, hm, hv]
      simp
    | some i =>
      dsimp only
      rw [rule _ withTaken_actionOnly i (withTaken_lane once hb hv), if_neg (by simp)]
      refine (outcome ((s.replaceLanes g (namedLanes s p args bs)).setLane i (g i)) _).trans ?_
      unfold State.withTaken
      rw [takenOutcomes_named hm, namedLanes_snoc, hm, hv]
      exact congrArg (State.setPort · p _) (replaceLanes_snoc s g _ i).symm

theorem foldl_takeLane_alone (rule : TakenAlone s p a args g o) (once : viewOnce s p) (hn : bs.Nodup) :
    bs.foldl (takeLane p a 0) (s.readied p code args) = s.withTaken p code args g o bs := by
  induction bs using List.reverseRecOn with
  | nil => exact (withTaken_nil s p code args g o).symm
  | append_singleton bs b ih =>
    obtain ⟨hn, -, hb⟩ := List.nodup_append.mp hn
    rw [List.foldl_append, ih hn]
    exact takeLane_withTaken rule once fun c => hb b c b (.head _) rfl

end Taken

/-! ## The write stop of such an action (R143, R146 to R148, R180) -/

section Issue
variable {s u : State} {p : PortId} {a : Action} {code : Nat} {args : ActionArgs} {g : LaneId → Lane}
  {o : LaneId → LaneOutcome} {outs : Tab 8 LaneOutcome}

theorem runAction_alone (rule : TakenAlone s p a args g o) (once : viewOnce s p) (hout : (s.port p).handed = [])
    (ha : a.usesMask = true) :
    ((s.setAction p fun x => x.requested (byte a.code) args).runAction p a 0).setStatus p
        (fun st => st.afterWrite 0x30 ⟨2, 0, 0, none⟩) =
      (s.replaceLanes g (namedLanes s p args (Tab.indices 8))).setPort p
        ((s.port p).acted (byte a.code) args (takenOutcomes s p args o (Tab.indices 8))) := by
  have ready : ((s.setAction p fun x => x.requested (byte a.code) args).setAction p fun x =>
      { x with perLane := Tab.fill 8 .none }) = s.readied p (byte a.code) args := by
    unfold State.setAction State.readied
    rw [State.port_setPort_self, setPort_setPort]
    rfl
  unfold State.runAction
  dsimp only
  rw [if_pos ha, ready, foldl_takeLane_alone rule once (Tab.indices_nodup 8)]
  unfold State.closeAction
  rw [withTaken_port]
  dsimp only
  rw [hout]
  dsimp only
  unfold State.setStatus State.setAction
  rw [State.port_setPort_self, setPort_setPort, withTaken_port]
  unfold State.withTaken Port.acted
  rw [setPort_setPort]

/-- An action that leaves `u` of the lanes is reported at its port, and by its port alone (R143, R147, R180). -/
theorem track_acted (own : Option (PortId × State)) (only : LanesOnly s u) (hout : (s.port p).handed = [])
    (hnone : ∀ b : Fin 8, args.mask.getLsbD b.val = false → outs.get b = .none)
    (hunmapped : ∀ b : Fin 8, args.mask.getLsbD b.val = true → viewLane s p b = none → outs.get b = .notMapped) :
    let t := track s own (u.setPort p ((s.port p).acted (byte code) args outs))
    actionReported s t p code args ∧ (t.offLanes).offAction p = (s.offLanes).offAction p ∧ t.legState = u.legState ∧
      (∀ i, t.lane i = u.lane i) ∧ (t.port p).action.perLane = outs := by
  obtain ⟨frame, bitmaps⟩ := track_eq s own (u.setPort p ((s.port p).acted (byte code) args outs))
  have lane := track_lane s own (u.setPort p ((s.port p).acted (byte code) args outs))
  dsimp only
  generalize track s own (u.setPort p ((s.port p).acted (byte code) args outs)) = t at frame bitmaps lane ⊢
  have port : t.port p = { (s.port p).acted (byte code) args outs with bitmap := (t.port p).bitmap } :=
    (bitmaps p).trans (by rw [State.port_setPort_self])
  have outcomes : (t.port p).action.perLane = outs := by rw [port]; rfl
  have other : ∀ q, q ≠ p → t.port q = { s.port q with bitmap := (t.port q).bitmap } := fun q hq =>
    (bitmaps q).trans (by rw [State.port_setPort_ne _ _ hq, only.port])
  refine ⟨⟨by rw [port]; rfl, by rw [port]; rfl, by rw [port]; exact hout, ?_, ?_, by rw [port]; rfl, ?_⟩, ?_,
    by rw [frame]; rfl, lane, outcomes⟩
  · rwa [outcomes]
  · rwa [outcomes]
  · rw [port]
    simp only [Port.acted, PortStatus.afterWrite, raiseStatus, statusMax, Nat.add_zero, Option.map_none]
    rfl
  · refine offAction_congr (a := { t with lanes := Tab.fill 8 .reset, legState := Tab.fill 4 .disabled })
      (b := { s with lanes := Tab.fill 8 .reset, legState := Tab.fill 4 .disabled }) ?_ (fun q hq => ⟨_, other q hq⟩)
      ⟨_, _, _, _, port⟩
    rw [frame, only]
    rfl

theorem takenOutcomes_get (s : State) (p : PortId) (args : ActionArgs) (o : LaneId → LaneOutcome) (b : Fin 8) :
    (takenOutcomes s p args o (Tab.indices 8)).get b =
      if args.mask.getLsbD b.val = true then (viewLane s p b).elim .notMapped o else .none := by
  unfold takenOutcomes
  rw [Tab.get_ofFn]
  simp only [Tab.mem_indices, true_and]

/-- An action whose named lanes are taken alone touches these lanes, and is reported at its port. -/
theorem issueAction_alone (rule : TakenAlone s p a args g o) (once : viewOnce s p) (hr : actionReady s p a.code)
    (ha : a.usesMask = true) (hargs : argumentsOk a args = true) :
    let t := issueAction s p a args 0
    actionReported s t p a.code args ∧ (t.offLanes).offAction p = (s.offLanes).offAction p ∧ t.legState = s.legState ∧
      (∀ j, (∀ b, ¬ names s p args b j) → t.lane j = s.lane j) ∧
      ∀ b i, names s p args b i → (t.port p).action.perLane.get b = o i ∧ t.lane i = g i := by
  have hout : (s.port p).handed = [] := hr.2.1
  dsimp only
  rw [issueAction_eq a args 0 hr hargs]
  dsimp only
  rw [runAction_alone rule once hout ha]
  obtain ⟨reported, frame, legs, lane, outcomes⟩ := track_acted (code := a.code)
    (some (p, s.setAction p fun x => x.requested (byte a.code) args))
    (replaceLanes_lanesOnly s g (namedLanes s p args (Tab.indices 8))) hout
    (fun b hb => (takenOutcomes_get s p args o b).trans (if_neg (by rw [hb]; nofun)))
    (fun b hb hv => (takenOutcomes_get s p args o b).trans ((if_pos hb).trans (by rw [hv]; rfl)))
  refine ⟨reported, frame, legs, fun j hj => ?_, fun b i hb => ⟨?_, ?_⟩⟩
  · exact (lane j).trans ((replaceLanes_lane s g _ j).trans (if_neg (not_mem_namedLanes hj)))
  · obtain ⟨hm, hv⟩ := hb
    rw [outcomes, takenOutcomes_get, if_pos hm, hv]
    rfl
  · exact (lane i).trans ((replaceLanes_lane s g _ i).trans (if_pos (mem_namedLanes_all.mpr ⟨b, hb⟩)))

end Issue

/-! ## MEASURE (R104, R108, R154) -/

/-- MEASURE at one lane. -/
def State.measuredLane (s : State) (d : Side) (i : LaneId) : Lane :=
  if (s.lane i).state = .off ∨ (s.lane i).state = .down ∨ (s.half i d).scan.inFlight ≠ none then s.lane i
  else s.measured i d (s.lane i)

/-- Its outcome. -/
def State.measureOutcome (s : State) (d : Side) (i : LaneId) : LaneOutcome :=
  if (s.lane i).state = .off then .notMapped
  else if (s.lane i).state = .down ∨ (s.half i d).scan.inFlight ≠ none then .busy
  else .done

section Measure
variable {s t : State} {p : PortId} {args : ActionArgs} {d : Side} {i : LaneId}

theorem measureLane_off (ho : (s.lane i).state = .off) : measureLane s i d = (s, .notMapped) := by
  unfold measureLane
  rw [ho]

theorem measureLane_eq (s : State) (i : LaneId) (d : Side) :
    measureLane s i d = (s.setLane i (s.measuredLane d i), s.measureOutcome d i) := by
  unfold State.measuredLane State.measureOutcome
  by_cases ho : (s.lane i).state = .off
  · rw [if_pos (.inl ho), if_pos ho, State.setLane_lane_self]
    exact measureLane_off ho
  by_cases hb : (s.lane i).state = .down ∨ (s.half i d).scan.inFlight ≠ none
  · rw [if_pos (.inr hb), if_neg ho, if_pos hb, State.setLane_lane_self]
    exact measureLane_busy ho hb
  · obtain ⟨hd, hn⟩ := not_or.mp hb
    rw [if_neg (not_or.mpr ⟨ho, hb⟩), if_neg ho, if_neg hb]
    refine (measureLane_free ho hd (not_not.mp hn)).trans (congrArg (·, LaneOutcome.done) ?_)
    exact moveLane_alone fun c => c.2 ((Lane.setHalf_state _ _ _).trans c.1)

theorem ctx_locked (s : State) (i : LaneId) (d : Side) : (s.ctx i d).locked = s.locked i d := rfl

/-- What the rules of a side read (R9) is the same while other lanes of the action are taken. -/
theorem ActionOnly.ctx (ht : ActionOnly p s t) (hl : t.lane i = s.lane i) (d : Side) : t.ctx i d = s.ctx i d := by
  obtain ⟨lanes, legState, ports, rfl⟩ : ∃ lanes legState ports,
      t = { s with lanes := lanes, legState := legState, ports := ports } := ⟨_, _, _, ht⟩
  have locked : State.locked { s with lanes := lanes, legState := legState, ports := ports } i d = s.locked i d := by
    unfold State.locked
    rw [hl]
  unfold State.ctx
  rw [locked]
  rfl

theorem measure_alone (s : State) (p : PortId) (args : ActionArgs) :
    TakenAlone s p .measure args (s.measuredLane (sideOf p args.side)) (s.measureOutcome (sideOf p args.side)) := by
  intro t ht i hl
  refine (measureLane_eq t i _).trans ?_
  unfold State.measuredLane State.measureOutcome State.measured State.half
  rw [ht.ctx hl, hl]

end Measure

/-- Settles O41, by what MEASURE makes of one lane, taken alone: a lane that is OFF or DOWN or whose receiver has a scan in
flight stays as it is, and a free receiver starts its scan, which without lock ends at once. -/
theorem measureStartsScans : Obligations.MeasureStartsScans := by
  intro p args s hr once
  obtain ⟨reported, frame, leg, others, named⟩ := issueAction_alone (measure_alone s p args) once hr rfl rfl
  refine ⟨_, rfl, reported, frame, leg, others, fun b i hb => ?_⟩
  obtain ⟨outcome, lane⟩ := named b i hb
  dsimp only
  rw [outcome, lane]
  have started : (s.lane i).state ≠ .off ∧ (s.lane i).state ≠ .down ∧
      (s.half i (sideOf p args.side)).scan.inFlight = none →
      s.measureOutcome (sideOf p args.side) i = .done ∧ s.measuredLane (sideOf p args.side) i =
        s.measured i (sideOf p args.side) (s.lane i) := fun ⟨ho, hd, hn⟩ => by
    simp [State.measureOutcome, State.measuredLane, ho, hd, hn]
  refine ⟨fun ho => ⟨if_pos ho, if_pos (.inl ho)⟩, fun ho hb => ⟨(if_neg ho).trans (if_pos hb), if_pos (.inr hb)⟩,
    fun free locked => ⟨(started free).1, (started free).2.trans ?_⟩,
    fun free unlocked => ⟨(started free).1, (started free).2.trans ?_⟩⟩
  · obtain ⟨-, -, hn⟩ := free
    unfold State.measured
    rw [startScan_action _ hn, if_pos ((ctx_locked s i _).trans locked)]
  · obtain ⟨-, -, hn⟩ := free
    unfold State.measured
    rw [startScan_action _ hn, ctx_locked, unlocked]
    rfl

end Sys2Proof.Machine
end

section
/-! SUPPORT. The Margin Watch's period: WATCH_PERIOD_EXPIRY, FREEZE and THAW (R132, R133, R135, R136, R140, R141, R155). -/

namespace Sys2Proof.Machine

/-! ## FREEZE and THAW (R140, R141, R155) -/

/-- FREEZE with the flag already set rewrites the flag and the timer with what they hold. -/
theorem freezeWatch_eq (s : State) :
    s.freezeWatch = { s with freeze := true, watchTimer := if s.freeze then s.watchTimer else none } := by
  unfold State.freezeWatch
  split
  · next h => rw [← h]
  · rfl

/-- THAW with the flag already clear rewrites the flag and the timer with what they hold. -/
theorem thawWatch_eq (s : State) :
    s.thawWatch = { s with
      freeze := false
      watchTimer := if s.freeze then (if s.part = .running then some s.periodMs else none) else s.watchTimer } := by
  unfold State.thawWatch
  split
  · rfl
  · next h => rw [← Bool.eq_false_iff.mpr h]

/-- A part-wide action that sets the freeze flag and the period timer is reported DONE at its port, and leaves the rest of
the part alone (R147, R155, R180). -/
theorem issuePart_setsWatch {s : State} {p : PortId} {a : Action} {args : ActionArgs} {frozen : Bool} {timer : Timer}
    (hr : actionReady s p a.code) (ha : a.usesMask = false)
    (op : partOperation (s.readied p (byte a.code) args) a =
      ({ s.readied p (byte a.code) args with freeze := frozen, watchTimer := timer }, .done)) :
    let t := issueAction s p a args 0
    partReported s t p a.code args .done ∧
      t.quiet.offAction p = ({ s with freeze := frozen, watchTimer := timer }.quiet).offAction p := by
  obtain ⟨t, ht, reported, frame, others, port⟩ := issuePart_reported
    (u := { s.readied p (byte a.code) args with freeze := frozen, watchTimer := timer }) hr ha (congrArg Prod.snd op)
    (congrArg (fun x => State.quiet x.1) op) rfl
  dsimp only
  rw [ht]
  exact ⟨reported, offAction_congr frame others port⟩

/-- Settles O44, by what either action makes of the flag and the timer. -/
theorem freezeAndThawSetTheWatch : Obligations.FreezeAndThawSetTheWatch := by
  intro p args s
  refine ⟨fun hr => ⟨_, rfl, ?_⟩, fun hr => ⟨_, rfl, ?_⟩⟩
  · exact issuePart_setsWatch (a := .freeze) hr rfl (congrArg (·, Overall.done) (freezeWatch_eq _))
  · exact issuePart_setsWatch (a := .thaw) hr rfl (congrArg (·, Overall.done) (thawWatch_eq _))

/-! ## A receiver that the watch asks to scan (R104, R108, R133, R135, R136) -/

section Receiver
variable {ctx : Ctx} {h : Half}

/-- A receiver with a scan in flight declines (R133). -/
theorem requestWatchScan_busy (hn : h.scan.inFlight ≠ none) : h.requestWatchScan ctx = Out.ok h := by
  obtain ⟨sc, flying⟩ := Option.ne_none_iff_exists'.mp hn
  unfold Half.requestWatchScan
  rw [flying]

theorem requestWatchScan_free (hn : h.scan.inFlight = none) : h.requestWatchScan ctx = h.startScan ctx .watch := by
  unfold Half.requestWatchScan
  rw [hn]

/-- A free receiver with lock starts a WATCH scan (R104). -/
theorem requestWatchScan_locked (hn : h.scan.inFlight = none) (hl : ctx.locked = true) :
    h.requestWatchScan ctx = Out.ok { h with scan := { h.scan with inFlight := some ⟨.watch, 1, []⟩ } } :=
  (requestWatchScan_free hn).trans (if_pos hl)

/-- A free receiver without lock takes a NO READING, an alarm reading, at once (R108, R135, R136). -/
theorem requestWatchScan_unlocked (hn : h.scan.inFlight = none) (hl : ctx.locked = false) : h.requestWatchScan ctx =
    ⟨{ h.record (Reading.noReading .watch) with
        watch := ⟨h.watch.baseline, true, satInc lowMax h.watch.low⟩
        watchAlarms := satInc counterMax h.watchAlarms },
      none, ctx.autoRetrain && decide (ctx.kAlarm ≤ satInc lowMax h.watch.low)⟩ := by
  have alarm := watchReading_alarm (ctx := ctx) (h := h.record (Reading.noReading .watch)) (r := none) rfl
  exact (requestWatchScan_free hn).trans ((if_neg (by rw [hl]; nofun)).trans alarm)

/-- The watch's request fails no segment. -/
theorem requestWatchScan_fail (ctx : Ctx) (h : Half) : (h.requestWatchScan ctx).fail = none := by
  by_cases hn : h.scan.inFlight = none
  · cases hl : ctx.locked with
    | true => rw [requestWatchScan_locked hn hl]; rfl
    | false => rw [requestWatchScan_unlocked hn hl]
  · rw [requestWatchScan_busy hn]; rfl

end Receiver

/-! ## A lane that the watch asks to scan (R133) -/

/-- What the watch's request leaves of a side, read from the part as it stands before any lane is asked. -/
def State.watchOut (s : State) (i : LaneId) (d : Side) : Out := (s.half i d).requestWatchScan (s.ctx i d)

/-- The lane once its two receivers have been asked. -/
def State.watchedLane (s : State) (i : LaneId) : Lane :=
  if (s.lane i).state = .carry then ((s.lane i).took .S (s.watchOut i .S)).took .C (s.watchOut i .C) else s.lane i

section Lane
variable {s t : State} {i : LaneId}

theorem watchReceiver_carry (d : Side) (hc : (s.lane i).state = .carry) :
    s.watchReceiver i d = s.setLane i ((s.lane i).took d (s.watchOut i d)) :=
  (if_pos hc).trans (applyOut_carry hc (requestWatchScan_fail _ _))

theorem watchReceiver_other (d : Side) (hc : (s.lane i).state ≠ .carry) : s.watchReceiver i d = s := if_neg hc

/-- What the S-receiver took is nothing that the C-receiver reads. -/
theorem watchOut_setLane_took (s : State) (i : LaneId) (o : Out) :
    (s.setLane i ((s.lane i).took .S o)).watchOut i .C = s.watchOut i .C := by
  have half : (s.setLane i ((s.lane i).took .S o)).half i .C = s.half i .C := by
    rw [State.half, State.lane_setLane_self, Lane.took_half, if_neg nofun, State.half]
  unfold State.watchOut
  rw [half]
  rfl

theorem watchLane_eq (s : State) (i : LaneId) : s.watchLane i = s.setLane i (s.watchedLane i) := by
  unfold State.watchLane State.watchedLane
  by_cases hc : (s.lane i).state = .carry
  · have carry : ((s.setLane i ((s.lane i).took .S (s.watchOut i .S))).lane i).state = .carry := by
      rw [State.lane_setLane_self, Lane.took_state, hc]
    rw [if_pos hc, watchReceiver_carry .S hc, watchReceiver_carry .C carry, watchOut_setLane_took,
      State.lane_setLane_self, setLane_setLane]
  · rw [if_neg hc, watchReceiver_other .S hc, watchReceiver_other .C hc, State.setLane_lane_self]

/-- A lane that is not asked yet is asked as it stood before the others (R133). -/
theorem watchedLane_congr (ht : LanesOnly s t) (hl : t.lane i = s.lane i) : t.watchedLane i = s.watchedLane i := by
  unfold State.watchedLane State.watchOut State.half
  simp only [(ht.actionOnly 0).ctx hl, hl]

theorem foldl_watchLane (s : State) {is : List LaneId} (hn : is.Nodup) :
    is.foldl State.watchLane s = s.replaceLanes s.watchedLane is := by
  induction is using List.reverseRecOn with
  | nil => exact (replaceLanes_nil s _).symm
  | append_singleton is i ih =>
    obtain ⟨hn, -, apart⟩ := List.nodup_append.mp hn
    have later : i ∉ is := fun hi => apart i hi i (.head _) rfl
    have same : (s.replaceLanes s.watchedLane is).lane i = s.lane i := (replaceLanes_lane s _ is i).trans (if_neg later)
    rw [List.foldl_append, ih hn, replaceLanes_snoc, ← watchedLane_congr (replaceLanes_lanesOnly s _ is) same]
    exact watchLane_eq _ i

theorem watchedLane_other (hc : (s.lane i).state ≠ .carry) : s.watchedLane i = s.lane i := if_neg hc

theorem watchedLane_carry (hc : (s.lane i).state = .carry) :
    (s.watchedLane i).state = .carry ∧ ∀ d, (s.watchedLane i).half d = (s.watchOut i d).half := by
  unfold State.watchedLane
  rw [if_pos hc]
  refine ⟨by rw [Lane.took_state, Lane.took_state, hc], fun d => ?_⟩
  rw [Lane.took_half, Lane.took_half]
  cases d <;> rfl

end Lane

/-! ## WATCH_PERIOD_EXPIRY (R132, R133) -/

/-- The part with a period started anew. -/
def State.periodStarted (s : State) : State := { s with watchTimer := some s.periodMs }

theorem watchPeriodExpiry_eq {s : State} (ht : s.watchTimer ≠ none) : exec .watchPeriodExpiry s =
    .next (engineEvent s (s.periodStarted.replaceLanes s.periodStarted.watchedLane (Tab.indices 8))) := by
  obtain ⟨n, running⟩ := Option.ne_none_iff_exists'.mp ht
  show execWatchPeriodExpiry s = _
  unfold execWatchPeriodExpiry
  rw [running]
  exact congrArg (fun t => Host.Outcome.next (engineEvent s t)) (foldl_watchLane s.periodStarted (Tab.indices_nodup 8))

/-- Settles O22: every lane is asked as it stood before the event, and a receiver answers by its scan in flight and its
lock. -/
theorem watchPeriodScansCarryingLanes : Obligations.WatchPeriodScansCarryingLanes := by
  intro s ht
  have lane : ∀ i, (s.periodStarted.replaceLanes s.periodStarted.watchedLane (Tab.indices 8)).lane i =
      s.periodStarted.watchedLane i := fun i => (replaceLanes_lane _ _ _ i).trans (if_pos (Tab.mem_indices i))
  refine ⟨_, watchPeriodExpiry_eq ht, rfl, ?_, fun i hc => (lane i).trans (watchedLane_other hc), fun i d hc => ?_⟩
  · exact (engineEvent_offLanes _ _).trans (replaceLanes_lanesOnly s.periodStarted _ _).offLanes
  · obtain ⟨state, half⟩ := watchedLane_carry (s := s.periodStarted) hc
    have side := (congrArg (Lane.half · d) (lane i)).trans (half d)
    refine ⟨(congrArg Lane.state (lane i)).trans state, fun busy => ?_, fun free locked => ?_, fun free unlocked => ?_⟩
    · exact side.trans (congrArg Out.half (requestWatchScan_busy busy))
    · exact side.trans (congrArg Out.half (requestWatchScan_locked free locked))
    · have alarmed := side.trans (congrArg Out.half (requestWatchScan_unlocked free unlocked))
      exact ⟨congrArg (·.scan.inFlight) alarmed, congrArg (·.scan.last) alarmed, congrArg Half.watch alarmed,
        congrArg Half.watchAlarms alarmed⟩

end Sys2Proof.Machine
end

section
/-! SUPPORT. A write of the request fields, and the action it issues: what the Access Policy Unit answers, what the
whole-action tests say, and what the write stop of an action that fails one of them leaves (R143 to R145, R147, R167,
R175, R177, R179, R180). -/

namespace Sys2Proof.Machine

/-! ## The commands that issue an action (R144) -/

theorem exec_issued {c : Instr} {p : PortId} {code : Byte} {args : ActionArgs}
    (h : issuedAction c = some (p, code, args)) (s : State) :
    exec c s = .next (issueCode s p code args (issuedLater c)) := by
  cases c <;> cases h <;> rfl

/-- At a port that acknowledges, the write stop that issues an action is taken (R161). -/
theorem issueCode_acknowledged {s : State} {p : PortId} (h : acknowledges s p = true) (code : Byte) (args : ActionArgs)
    (later : BitVec 8) :
    issueCode s p code args later = writeStop s p 0x30 ⟨some 0x30, requestEntries code args⟩ later :=
  if_pos ⟨h, nofun⟩

/-! ## Request bytes (12.5, R143) -/

/-- A holding buffer with bytes of the request fields alone, the first of them at offset `off`. -/
structure RequestBytes (b : HoldingBuffer) (off : Nat) : Prop where
  first : ∃ x rest, b.entries = (off, x) :: rest
  within : ∀ e ∈ b.entries, e.1 < 6

/-- The request fields that a buffer leaves of an action block (R144, R167). -/
def ActionBlock.written (x : ActionBlock) (b : HoldingBuffer) : ActionBlock :=
  x.requested ((b.byteAt 0).getD x.code) (writtenArgs x.args b)

theorem requestEntries_bytes (code : Byte) (args : ActionArgs) :
    RequestBytes ⟨some 0x30, requestEntries code args⟩ 0 :=
  ⟨⟨code, _, rfl⟩, by simp [requestEntries]⟩

theorem groupAt_request (s : State) (p : PortId) {off : Nat} (h : off < 6) : groupAt s p .action off = .request := by
  have all : ∀ i : Fin 6, groupAt s p .action i.val = .request := fun i => by fin_cases i <;> rfl
  exact all ⟨off, h⟩

/-- Only a leg host is refused the request fields, by its policy entry (R175, R177). -/
theorem judgeWrite_request (s : State) (p : PortId) : judgeWrite s p .action .request =
    if p = 0 ∨ s.policy.write.getLsbD 14 = true then .allow else .refused := by
  have free : classBusy s p .action = false := by
    unfold classBusy
    split <;> rfl
  have writable : fixedRefuses p .action .request = false := by simp [fixedRefuses, FieldGroup.readOnly]
  unfold judgeWrite mayWrite
  rw [free, writable]
  by_cases h0 : p = 0 <;> simp [h0, FieldGroup.position]

section RequestBytes
variable {s : State} {p : PortId} {b : HoldingBuffer} {off : Nat}

theorem RequestBytes.groups (h : RequestBytes b off) : writtenGroups s p .action b = [.request] := by
  obtain ⟨x, rest, first⟩ := h.first
  have tail : (rest.map fun e => groupAt s p .action e.1).filter (fun g => !(g == .request)) = [] := by
    refine List.filter_eq_nil_iff.mpr fun g hg => ?_
    obtain ⟨e, he, rfl⟩ := List.mem_map.mp hg
    simp [groupAt_request s p (h.within e (first ▸ .tail _ he))]
  unfold writtenGroups
  rw [first, List.map_cons, groupAt_request s p (h.within (off, x) (first ▸ .head _)), List.eraseDups_cons, tail]
  rfl

theorem groupAnswer_request (s : State) (p : PortId) (b : HoldingBuffer) :
    groupAnswer s p .action b .request = judgeWrite s p .action .request := by
  unfold groupAnswer
  split
  · next h => rw [h]; rfl
  · rfl

theorem RequestBytes.stored (h : RequestBytes b off) (ha : judgeWrite s p .action .request = .allow) :
    storeGroups s p .action b = s.setAction p fun x => x.written b := by
  unfold storeGroups
  rw [h.groups, List.filter_cons_of_pos (by rw [groupAnswer_request, ha]; rfl)]
  simp only [List.filter_nil, List.foldl_cons, List.foldl_nil, storeGroup, written_eq_elim]
  unfold ActionBlock.written
  cases b.byteAt 0 <;> rfl

theorem RequestBytes.notStored (h : RequestBytes b off) (ha : judgeWrite s p .action .request = .refused) :
    storeGroups s p .action b = s := by
  unfold storeGroups
  rw [h.groups, List.filter_cons_of_neg (by rw [groupAnswer_request, ha]; nofun)]
  rfl

theorem RequestBytes.tally_stored (h : RequestBytes b off) (ha : judgeWrite s p .action .request = .allow) :
    tallyGroups s p .action b = ⟨1, 0, 0, none⟩ := by
  have find : b.entries.find? (fun e =>
      decide (groupAnswer s p .action b (groupAt s p .action e.1) ≠ .allow)) = none :=
    List.find?_eq_none.mpr fun e he => by simp [groupAt_request s p (h.within e he), groupAnswer_request, ha]
  unfold tallyGroups
  rw [find, h.groups]
  simp [groupAnswer_request, ha]

theorem RequestBytes.tally_refused (h : RequestBytes b off) (ha : judgeWrite s p .action .request = .refused) :
    tallyGroups s p .action b = ⟨0, 1, 0, some off⟩ := by
  obtain ⟨x, rest, first⟩ := h.first
  have find : b.entries.find? (fun e => decide (groupAnswer s p .action b (groupAt s p .action e.1) ≠ .allow)) =
      some (off, x) := by
    have group := groupAt_request s p (h.within (off, x) (first ▸ .head _))
    rw [first, List.find?_cons_of_pos (by rw [group, groupAnswer_request, ha]; rfl)]
  unfold tallyGroups
  rw [find, h.groups]
  simp [groupAnswer_request, ha]

/-! ## The write stop of request bytes (R144, R167, R177, R180) -/

/-- With the code byte the fields are stored and an action is taken. -/
theorem RequestBytes.effect_takes (h : RequestBytes b off) (ha : judgeWrite s p .action .request = .allow) {code : Byte}
    (hc : b.byteAt 0 = some code) (later : BitVec 8) : writeEffect s p 0x30 b later =
      (let mid := s.setAction p fun x => x.requested code (writtenArgs x.args b)
      (mid, (mid.takeAction p later).1.setStatus p fun st =>
        st.afterWrite 0x30 ((⟨1, 0, 0, none⟩ : Tally).withAction (mid.takeAction p later).2))) := by
  have takes : writesCode s p .action b = true := by
    unfold writesCode
    rw [groupAnswer_request, ha, hc]
    rfl
  unfold writeEffect
  rw [resolve_action]
  dsimp only
  rw [if_pos takes, h.stored ha, h.tally_stored ha]
  simp only [ActionBlock.written, hc, Option.getD_some]

/-- Without it the fields are stored and no action is taken. -/
theorem RequestBytes.effect_stores (h : RequestBytes b off) (ha : judgeWrite s p .action .request = .allow)
    (hc : b.byteAt 0 = none) (later : BitVec 8) : writeEffect s p 0x30 b later =
      (let mid := s.setAction p fun x => { x with args := writtenArgs x.args b }
      (mid, mid.setStatus p fun st => st.afterWrite 0x30 ⟨1, 0, 0, none⟩)) := by
  have takes : writesCode s p .action b = false := by
    unfold writesCode
    rw [hc]
    rfl
  unfold writeEffect
  rw [resolve_action]
  dsimp only
  rw [if_neg (by rw [takes]; nofun), h.stored ha, h.tally_stored ha]
  simp only [ActionBlock.written, hc]
  rfl

/-- Where the policy refuses them nothing is stored and no action taken. -/
theorem RequestBytes.effect_refused (h : RequestBytes b off) (ha : judgeWrite s p .action .request = .refused)
    (later : BitVec 8) : writeEffect s p 0x30 b later =
      (s, s.setStatus p fun st => st.afterWrite 0x30 ⟨0, 1, 0, some off⟩) := by
  have takes : writesCode s p .action b = false := by
    unfold writesCode
    rw [groupAnswer_request, ha]
    exact Bool.and_false _
  unfold writeEffect
  rw [resolve_action]
  dsimp only
  rw [if_neg (by rw [takes]; nofun), h.notStored ha, h.tally_refused ha]

end RequestBytes

/-! ## The whole-action tests (R145, R175, R179) -/

/-- The code names no action, or a fixed or a policy entry refuses it to a leg host (R145, R175, R179). -/
def actionBarred (s : State) (p : PortId) (n : Nat) : Prop :=
  n = 0 ∨ 14 < n ∨ (p ≠ 0 ∧ (n = 13 ∨ n = 14 ∨ s.policy.actions.getLsbD (n - 1) = false))

/-- The writer is a leg host whose ACTION busy flag is set (R178, R179). -/
def actionClosed (s : State) (p : PortId) : Prop := ∃ k : LegId, p = legPort k ∧ (s.busy.get k).action = true

/-- The action's arguments name no tap or no preset (R71, R145). -/
def argumentsBad (n : Nat) (args : ActionArgs) : Prop :=
  (n = 8 ∧ args.tap.val = 3) ∨ (n = 9 ∧ 4 ≤ args.preset.val)

theorem Action.code_range (a : Action) : 1 ≤ a.code ∧ a.code ≤ 14 := by
  cases a <;> decide

theorem actionOfCode_code (a : Action) : actionOfCode a.code = some a := by
  cases a <;> rfl

theorem code_of_actionOfCode {n : Nat} {a : Action} (h : actionOfCode n = some a) : n = a.code := by
  unfold actionOfCode at h
  split at h <;> cases h <;> rfl

theorem Action.code_inj {a b : Action} (h : a.code = b.code) : a = b :=
  Option.some.inj (by rw [← actionOfCode_code a, h, actionOfCode_code])

theorem actionOfCode_reserved {n : Nat} (h : n = 0 ∨ 14 < n) : actionOfCode n = none := by
  cases ha : actionOfCode n with
  | none => rfl
  | some a =>
    have range := a.code_range
    rw [← code_of_actionOfCode ha] at range
    omega

theorem actionOfCode_named {n : Nat} (h : ¬ (n = 0 ∨ 14 < n)) : ∃ a, actionOfCode n = some a := by
  have all : ∀ i : Fin 14, (actionOfCode (i.val + 1)).isSome = true := by decide
  have named := all ⟨n - 1, by omega⟩
  rw [show n - 1 + 1 = n by omega] at named
  exact Option.isSome_iff_exists.mp named

/-- FREEZE, THAW, APPLY_PROFILE and SOFT_RESET ignore the mask (R147). -/
theorem usesMask_iff (a : Action) : a.usesMask = true ↔ ¬ (11 ≤ a.code ∧ a.code ≤ 14) := by
  cases a <;> decide

theorem codeUsesMask_iff (n : Nat) : codeUsesMask n = true ↔ ¬ (11 ≤ n ∧ n ≤ 14) := by
  unfold codeUsesMask
  cases h : actionOfCode n with
  | none =>
    refine iff_of_true rfl fun hn => ?_
    obtain ⟨a, ha⟩ := actionOfCode_named (n := n) (by omega)
    rw [h] at ha
    cases ha
  | some a =>
    rw [code_of_actionOfCode h]
    exact usesMask_iff a

theorem argumentsOk_of_bad {a : Action} {args : ActionArgs} (h : argumentsBad a.code args) :
    argumentsOk a args = false := by
  rcases h with ⟨hn, ht⟩ | ⟨hn, hp⟩
  · obtain rfl : a = .step := Action.code_inj hn
    simp only [argumentsOk, ht, tapOfCode, Option.isSome_none]
  · obtain rfl : a = .preset := Action.code_inj hn
    simp only [argumentsOk, presetOfCode, dif_neg (Nat.not_lt.mpr hp), Option.isSome_none]

theorem legPort_ne_zero (k : LegId) : legPort k ≠ 0 := by
  revert k
  decide

theorem legPort_inj {k m : LegId} : legPort k = legPort m → k = m := by
  revert k m
  decide

theorem judgeAction_leg (s : State) (k : LegId) (n : Nat) : judgeAction s (legPort k) n =
    if s.policy.actions.getLsbD (n - 1) = false ∨ n = 13 ∨ n = 14 then .refused
    else if (s.busy.get k).action then .busy else .allow := by
  unfold judgeAction
  rw [portLeg_legPort]
  rfl

section Test
variable {s : State} {p : PortId} {n : Nat} {args : ActionArgs}

theorem judgeAction_barred (hn : ¬ (n = 0 ∨ 14 < n)) (h : actionBarred s p n) : judgeAction s p n = .refused := by
  obtain ⟨h0, entry⟩ := (or_assoc.mpr h).resolve_left hn
  obtain ⟨k, rfl⟩ := (port_cases p).resolve_left h0
  rw [judgeAction_leg, if_pos (by tauto)]

theorem judgeAction_notBarred (h : ¬ actionBarred s p n) :
    (actionClosed s p → judgeAction s p n = .busy) ∧ (¬ actionClosed s p → judgeAction s p n = .allow) := by
  unfold actionBarred at h
  rcases port_cases p with rfl | ⟨k, rfl⟩
  · exact ⟨fun ⟨k, e, _⟩ => absurd e.symm (legPort_ne_zero k), fun _ => rfl⟩
  · have entry : ¬ (s.policy.actions.getLsbD (n - 1) = false ∨ n = 13 ∨ n = 14) := fun c =>
      h (.inr (.inr ⟨legPort_ne_zero k, by tauto⟩))
    rw [judgeAction_leg, if_neg entry]
    exact ⟨fun ⟨m, e, closed⟩ => if_pos (legPort_inj e ▸ closed),
      fun free => if_neg fun closed => free ⟨k, rfl, closed⟩⟩

theorem actionTest_refused (h : actionBarred s p n ∨ (¬ actionClosed s p ∧ argumentsBad n args)) :
    actionTest s p n args = .refused := by
  unfold actionTest
  by_cases hn : n = 0 ∨ 14 < n
  · rw [actionOfCode_reserved hn]
  · obtain ⟨a, ha⟩ := actionOfCode_named hn
    rw [ha]
    dsimp only
    by_cases hb : actionBarred s p n
    · rw [judgeAction_barred hn hb]
    · obtain ⟨free, bad⟩ := h.resolve_left hb
      rw [(judgeAction_notBarred hb).2 free, argumentsOk_of_bad (code_of_actionOfCode ha ▸ bad)]
      rfl

theorem actionTest_busy (hb : ¬ actionBarred s p n) (hc : actionClosed s p) : actionTest s p n args = .busy := by
  obtain ⟨a, ha⟩ := actionOfCode_named (n := n) fun hn => hb (or_assoc.mp (.inl hn))
  unfold actionTest
  rw [ha]
  dsimp only
  rw [(judgeAction_notBarred hb).1 hc]

end Test

/-! ## The write stop of an action that fails a test (R143 to R145, R147, R180) -/

/-- Port `x` after an action that a whole-action test has turned away, with the items that its status counts. -/
def Port.turnedAway (x : Port) (code : Byte) (args : ActionArgs) (o : Overall) (l : LaneOutcome) (t : Tally) : Port :=
  { x with
    action := ⟨code, args, o, if codeUsesMask code.toNat then namedOutcomes args.mask l else Tab.fill 8 .none⟩
    status := x.status.afterWrite 0x30 t }

/-- The request fields and the outcomes of a port after such an action, the rest of the part left alone. -/
def actionTurnedAway (s t : State) (p : PortId) (code : Byte) (args : ActionArgs) (o : Overall) (l : LaneOutcome) :
    Prop :=
  (t.port p).action.code = code ∧ (t.port p).action.args = args ∧ (t.port p).action.overall = o ∧
    (t.port p).handed = [] ∧
    (∀ b : Fin 8, (t.port p).action.perLane.get b =
      if args.mask.getLsbD b.val = true ∧ ¬ (11 ≤ code.toNat ∧ code.toNat ≤ 14) then l else .none) ∧
    t.quiet.offAction p = s.quiet.offAction p

section TurnedAway
variable {s : State} {p : PortId} {code : Byte} {args : ActionArgs} {o : Overall} {l : LaneOutcome}

theorem turnedAway_perLane (x : Port) (t : Tally) (b : Fin 8) :
    (x.turnedAway code args o l t).action.perLane.get b =
      if args.mask.getLsbD b.val = true ∧ ¬ (11 ≤ code.toNat ∧ code.toNat ≤ 14) then l else .none := by
  show (if codeUsesMask code.toNat = true then namedOutcomes args.mask l else Tab.fill 8 .none).get b = _
  simp only [codeUsesMask_iff]
  by_cases h : 11 ≤ code.toNat ∧ code.toNat ≤ 14
  · rw [if_neg (not_not.mpr h), if_neg fun c => c.2 h, Tab.get_fill]
  · simp only [h, not_false_eq_true, and_true, if_true, namedOutcomes, Tab.get_ofFn]

theorem track_turnedAway (own : Option (PortId × State)) (t : Tally) (hout : (s.port p).handed = []) :
    actionTurnedAway s (track s own (s.setPort p ((s.port p).turnedAway code args o l t))) p code args o l ∧
      ((track s own (s.setPort p ((s.port p).turnedAway code args o l t))).port p).status =
        (s.port p).status.afterWrite 0x30 t := by
  obtain ⟨frame, bitmaps⟩ := track_eq s own (s.setPort p ((s.port p).turnedAway code args o l t))
  generalize track s own _ = u at frame bitmaps ⊢
  have port : u.port p = { (s.port p).turnedAway code args o l t with bitmap := (u.port p).bitmap } :=
    (bitmaps p).trans (by rw [State.port_setPort_self])
  have other : ∀ q, q ≠ p → u.port q = { s.port q with bitmap := (u.port q).bitmap } := fun q hq =>
    (bitmaps q).trans (by rw [State.port_setPort_ne _ _ hq])
  refine ⟨⟨by rw [port]; rfl, by rw [port]; rfl, by rw [port]; rfl, by rw [port]; exact hout, fun b => ?_, ?_⟩,
    by rw [port]; rfl⟩
  · rw [port]
    exact turnedAway_perLane (s.port p) t b
  · exact offAction_congr (by rw [frame]; rfl) (fun q hq => ⟨_, other q hq⟩) ⟨_, _, _, _, port⟩

theorem refuseAction_requested (f : PortStatus → PortStatus) :
    ((s.setAction p fun x => x.requested code args).refuseAction p o l).setStatus p f =
      s.setPort p { s.port p with
        action := ⟨code, args, o, if codeUsesMask code.toNat then namedOutcomes args.mask l else Tab.fill 8 .none⟩
        status := f (s.port p).status } := by
  simp only [State.refuseAction, State.setStatus, State.setAction, State.port_setPort_self, setPort_setPort,
    ActionBlock.requested]

theorem issueCode_turnedAway {r : ActionTest} (hack : acknowledges s p = true) (hout : (s.port p).handed = [])
    (hw : judgeWrite s p .action .request = .allow) (later : BitVec 8)
    (ht : (s.setAction p fun x => x.requested code args).takeAction p later =
      ((s.setAction p fun x => x.requested code args).refuseAction p o l, r)) :
    ∃ own, issueCode s p code args later = track s own
      (s.setPort p ((s.port p).turnedAway code args o l ((⟨1, 0, 0, none⟩ : Tally).withAction r))) := by
  refine ⟨some (p, s.setAction p fun x => x.requested code args), ?_⟩
  rw [issueCode_eq code args later hack hout hw]
  dsimp only
  rw [ht, refuseAction_requested]
  rfl

theorem actionTest_requested : actionTest (s.setAction p fun x => x.requested code args) p
    ((s.setAction p fun x => x.requested code args).port p).action.code.toNat
    ((s.setAction p fun x => x.requested code args).port p).action.args = actionTest s p code.toNat args := by
  rw [State.setAction, State.port_setPort_self]
  rfl

theorem takeAction_refused (h : actionTest s p code.toNat args = .refused) (later : BitVec 8) :
    (s.setAction p fun x => x.requested code args).takeAction p later =
      ((s.setAction p fun x => x.requested code args).refuseAction p .refused .refused, .refused) := by
  unfold State.takeAction
  dsimp only
  rw [actionTest_requested, h]

theorem takeAction_busy (h : actionTest s p code.toNat args = .busy) (later : BitVec 8) :
    (s.setAction p fun x => x.requested code args).takeAction p later =
      ((s.setAction p fun x => x.requested code args).refuseAction p .busy .busy, .busy) := by
  unfold State.takeAction
  dsimp only
  rw [actionTest_requested, h]

end TurnedAway

/-- Settles O37, by what the whole-action tests say and, where the policy closes the request fields, by its answer. -/
theorem actionsThatFailATestAreRefusedWhole : Obligations.ActionsThatFailATestAreRefusedWhole := by
  intro p code args s c hc hack hout n st barred closed nameless
  refine ⟨_, exec_issued hc s, fun hw => ?_, fun h0 hp => ?_⟩
  · have taken : judgeWrite s p .action .request = .allow := (judgeWrite_request s p).trans (if_pos hw)
    refine ⟨fun fails => ?_, fun hb hcl => ?_⟩
    · obtain ⟨own, e⟩ := issueCode_turnedAway hack hout taken (issuedLater c)
        (takeAction_refused (actionTest_refused fails) _)
      rw [e]
      exact track_turnedAway own _ hout
    · obtain ⟨own, e⟩ := issueCode_turnedAway hack hout taken (issuedLater c)
        (takeAction_busy (actionTest_busy hb hcl) _)
      rw [e]
      exact track_turnedAway own _ hout
  · have refused : judgeWrite s p .action .request = .refused :=
      (judgeWrite_request s p).trans (if_neg fun c => c.elim h0 fun h => by rw [hp] at h; cases h)
    rw [issueCode_acknowledged hack]
    unfold writeStop
    rw [settleHanded_nil hout]
    dsimp only
    rw [(requestEntries_bytes code args).effect_refused refused]
    exact track_quiet _ _ _

end Sys2Proof.Machine
end

section
/-! SUPPORT. REGISTER_WRITE of request fields does what the row of the action does (R143, R144, R167, R177, R189). -/

namespace Sys2Proof.Machine

/-! ## Operations still out leave the request fields alone (R144, R148) -/

@[simp] theorem setAction_action (s : State) (p : PortId) (f : ActionBlock → ActionBlock) :
    ((s.setAction p f).port p).action = f (s.port p).action := by
  rw [State.setAction, State.port_setPort_self]

theorem setAction_congr {s : State} {p : PortId} {f g : ActionBlock → ActionBlock}
    (h : f (s.port p).action = g (s.port p).action) : s.setAction p f = s.setAction p g := by
  unfold State.setAction
  rw [h]

theorem closeAction_args (s : State) (p : PortId) :
    ((s.closeAction p).port p).action.args = (s.port p).action.args := by
  unfold State.closeAction
  split
  · rw [setAction_action]
  · rfl

theorem takeHanded_args (s : State) (p : PortId) (op : HandedOp) :
    ((s.takeHanded p op).port p).action.args = (s.port p).action.args := by
  unfold State.takeHanded
  dsimp only
  split
  · rw [closeAction_args, State.setOutcome, setAction_action, (handedOperation_lanesOnly ..).port,
      State.port_setPort_self]
  · rw [State.port_setPort_self]

theorem engineEvent_action (s t : State) (p : PortId) : ((engineEvent s t).port p).action = (t.port p).action := by
  show ((track s none t).port p).action = (t.port p).action
  rw [(track_eq s none t).2 p]

theorem settleHanded_args (s : State) (p : PortId) :
    ((settleHanded s p).port p).action.args = (s.port p).action.args := by
  unfold settleHanded
  generalize (s.port p).handed.length = n
  induction n generalizing s with
  | zero => rfl
  | succ n ih =>
    simp only [settleUpTo]
    split
    · rfl
    · rw [ih, engineEvent_action, takeHanded_args]

/-! ## The lanes that take their operation later (R147, R148; log 10) -/

theorem actionTest_passed {s : State} {p : PortId} {n : Nat} {args : ActionArgs} {a : Action}
    (h : actionTest s p n args = .passed a) : actionOfCode n = some a ∧ judgeAction s p n = .allow := by
  unfold actionTest at h
  split at h
  · cases h
  · next a' ha =>
    split at h
    · cases h
    · cases h
    · next allowed =>
      split at h
      · cases h
        exact ⟨ha, allowed⟩
      · cases h

theorem runAction_later {s : State} {p : PortId} {a : Action} (h : a.usesMask = false) (later later' : BitVec 8) :
    s.runAction p a later = s.runAction p a later' := by
  have unmasked : ¬ a.usesMask = true := by rw [h]; nofun
  unfold State.runAction
  dsimp only
  rw [if_neg unmasked, if_neg unmasked]

/-- An action that ignores the mask, or a code that names none, takes no lane's operation later. -/
theorem takeAction_later {s : State} {p : PortId} {later later' : BitVec 8}
    (h : later = later' ∨ (s.port p).action.code.toNat = 0 ∨ 11 ≤ (s.port p).action.code.toNat) :
    s.takeAction p later = s.takeAction p later' := by
  rcases h with rfl | h
  · rfl
  · unfold State.takeAction
    dsimp only
    split
    · next a passed =>
      rw [code_of_actionOfCode (actionTest_passed passed).1] at h
      have range := a.code_range
      have unmasked : a.usesMask = false := Bool.eq_false_iff.mpr fun m => (usesMask_iff a).mp m (by omega)
      rw [runAction_later unmasked later later']
    · rfl
    · rfl

/-! ## The write stop of REGISTER_WRITE and of the action's row (R144, R167) -/

/-- Two write stops whose bytes give one code and the same request fields do the same. -/
theorem writeStop_request_congr {s : State} {p : PortId} {b b' : HoldingBuffer} {off : Nat} {code : Byte}
    {later later' : BitVec 8} (hb : RequestBytes b off) (hb' : RequestBytes b' off) (hc : b.byteAt 0 = some code)
    (hc' : b'.byteAt 0 = some code)
    (ha : writtenArgs (s.port p).action.args b = writtenArgs (s.port p).action.args b')
    (hl : later = later' ∨ code.toNat = 0 ∨ 11 ≤ code.toNat) :
    writeStop s p 0x30 b later = writeStop s p 0x30 b' later' := by
  rw [← settleHanded_args s p] at ha
  unfold writeStop
  dsimp only
  generalize settleHanded s p = u at ha
  suffices same : writeEffect u p 0x30 b later = writeEffect u p 0x30 b' later' by rw [same]
  have answer := judgeWrite_request u p
  split at answer
  · have mid : (u.setAction p fun x => x.requested code (writtenArgs x.args b)) =
        u.setAction p fun x => x.requested code (writtenArgs x.args b') :=
      setAction_congr (congrArg ((u.port p).action.requested code) ha)
    rw [hb.effect_takes answer hc, hb'.effect_takes answer hc', mid]
    dsimp only
    rw [takeAction_later (later' := later') (by rwa [setAction_action])]
  · rw [hb.effect_refused answer, hb'.effect_refused answer]

/-- The request fields that a buffer leaves, byte by byte (12.5, R189). -/
theorem writtenArgs_eq (old : ActionArgs) (b : HoldingBuffer) : writtenArgs old b =
    { side := (b.byteAt 1).elim old.side fun v => if v = 0 then .near else .far
      mask := (b.byteAt 2).getD old.mask
      tap := (b.byteAt 3).elim old.tap fun v => Fin.ofNat 4 v.toNat
      direction := (b.byteAt 4).elim old.direction fun v => if v = 0 then .minus else .plus
      preset := (b.byteAt 5).elim old.preset fun v => Fin.ofNat 8 v.toNat } := by
  have side : ∀ v : Byte, (if flagOf v = true then ViewSide.far else .near) = if v = 0 then .near else .far :=
    fun v => by
      rw [flagOf_eq]
      by_cases h : v = 0 <;> simp [h]
  have direction : ∀ v : Byte, (if flagOf v = true then Direction.plus else .minus) = if v = 0 then .minus else .plus :=
    fun v => by
      rw [flagOf_eq]
      by_cases h : v = 0 <;> simp [h]
  have tap : ∀ v : Byte, Fin.ofNat 4 (lowBits 2 v) = Fin.ofNat 4 v.toNat := fun v =>
    Fin.ext (Nat.mod_mod_of_dvd _ (by decide))
  have preset : ∀ v : Byte, Fin.ofNat 8 (lowBits 3 v) = Fin.ofNat 8 v.toNat := fun v =>
    Fin.ext (Nat.mod_mod_of_dvd _ (by decide))
  have mask : written old.mask id (b.byteAt 2) = (b.byteAt 2).getD old.mask := by cases b.byteAt 2 <;> rfl
  simp only [writtenArgs, mask, written_eq_elim, side, direction, tap, preset]

/-- A byte at offset 0 of a buffer without such an entry is not marked. -/
theorem byteAt_zero_none {b : HoldingBuffer} (h : ∀ e ∈ b.entries, e.1 ≠ 0) : b.byteAt 0 = none :=
  List.lookup_eq_none_iff.mpr fun e he => by simpa using (h e he).symm

/-- The write part at port `p` is over. -/
def State.partEnded (u : State) (p : PortId) : State :=
  u.setPort p { u.port p with phase := .idle, buffer := ⟨none, []⟩, line := .released }

theorem endWritePart_eq {s : State} {p : PortId} {block : Nat} (later : BitVec 8)
    (h : (s.port p).buffer.block = some block) :
    endWritePart s p later = (writeStop s p block (s.port p).buffer later).partEnded p := by
  unfold endWritePart
  dsimp only
  rw [h]
  rfl

theorem partEnded_quiet_congr {a b : State} {p : PortId} (h : a.quiet = b.quiet) :
    (a.partEnded p).quiet = (b.partEnded p).quiet := by
  refine quiet_setPort_congr h ?_
  rw [port_of_quiet h p]

/-- A write stop at a port with no operation out is tracked from what it stores. -/
theorem writeStop_quiet {s : State} {p : PortId} (hout : (s.port p).handed = []) (block : Nat) (b : HoldingBuffer)
    (later : BitVec 8) : (writeStop s p block b later).quiet = (writeEffect s p block b later).2.quiet := by
  unfold writeStop
  rw [settleHanded_nil hout]
  exact track_quiet _ _ _

/-- Settles O38: with the code byte the two write stops store the same fields and take the same action; without it, the
fields are stored or refused alone. -/
theorem requestWritesTakeTheAction : Obligations.RequestWritesTakeTheAction := by
  intro p later s off x rest b old args ended hw hbuf hin
  have bytes : RequestBytes b off := ⟨⟨x, rest, congrArg HoldingBuffer.entries hbuf⟩, hin⟩
  have fields : writtenArgs old b = args := writtenArgs_eq old b
  have block : (s.port p).buffer.block = some 0x30 := congrArg HoldingBuffer.block hbuf
  have stop := (registerWrite_eq later hw).trans (congrArg Host.Outcome.next (endWritePart_eq later block))
  refine ⟨fun c hoff hack hc hl => ?_, fun hoff hout => ⟨_, stop, fun hw => ?_, fun h0 hp => ?_⟩⟩
  · subst hoff
    have code : b.byteAt 0 = some x := by
      rw [hbuf]
      rfl
    refine ⟨_, exec_issued hc s, stop.trans (congrArg (fun u => Host.Outcome.next (State.partEnded u p)) ?_)⟩
    rw [issueCode_acknowledged hack]
    exact writeStop_request_congr bytes (requestEntries_bytes x args) code rfl
      (fields.trans (requestEntries_args x args old).symm) hl
  · refine partEnded_quiet_congr ?_
    rw [writeStop_quiet hout, bytes.effect_stores ((judgeWrite_request s p).trans (if_pos hw)) (byteAt_zero_none hoff)]
    simp only [State.setStatus, State.setAction, State.port_setPort_self, setPort_setPort]
    rw [show writtenArgs (s.port p).action.args (s.port p).buffer = args from fields]
    rfl
  · have refused : ¬ (p = 0 ∨ s.policy.write.getLsbD 14 = true) := fun c => c.elim h0 fun h => by
      rw [hp] at h
      cases h
    refine partEnded_quiet_congr ?_
    rw [writeStop_quiet hout, bytes.effect_refused ((judgeWrite_request s p).trans (if_neg refused))]
    rfl

end Sys2Proof.Machine
end

section
/-! SUPPORT. What a leg's host reaches through its own port: its leg, its port, and the freeze flag and period timer of
the watch (R140, R141, R146, R150, R170, R174, R175, R179). -/

namespace Sys2Proof.Machine

/-! ## The reach of a leg's host -/

/-- `t` differs from `s` at most in what the host of leg `k` may reach: the lanes, the state and the configuration of its
leg, its port, every port's change bitmap, and the freeze flag and period timer. -/
structure LegReach (k : LegId) (s t : State) : Prop where
  frame : t = { s with
    lanes := t.lanes, legState := t.legState, legs := t.legs, ports := t.ports, freeze := t.freeze,
    watchTimer := t.watchTimer }
  lane : ∀ i, s.legOf i ≠ some k → t.lane i = s.lane i
  leg : ∀ m, m ≠ k → t.legs.get m = s.legs.get m ∧ t.legState.get m = s.legState.get m
  port : ∀ q, q ≠ legPort k → ∃ f, t.port q = { s.port q with bitmap := f }

/-- Every operation out through the port of leg `k` is one of a lane of the leg (R146). -/
def State.handsOutLeg (s : State) (k : LegId) : Prop := ∀ op ∈ (s.port (legPort k)).handed, s.legOf op.lane = some k

section Reach
variable {k : LegId} {s t u : State}

theorem LegReach.legOf (h : LegReach k s t) (i : LaneId) : t.legOf i = s.legOf i := by
  unfold State.legOf
  rw [h.frame]

theorem LegReach.wiringLaw (h : LegReach k s t) (hw : s.wiringLaw) : t.wiringLaw := fun m i hi =>
  (h.legOf i).trans (hw m i (by rwa [h.frame] at hi))

theorem LegReach.refl (k : LegId) (s : State) : LegReach k s s :=
  ⟨rfl, fun _ _ => rfl, fun _ _ => ⟨rfl, rfl⟩, fun q _ => ⟨(s.port q).bitmap, rfl⟩⟩

theorem LegReach.trans (h : LegReach k s t) (h' : LegReach k t u) : LegReach k s u := by
  refine ⟨?_, fun i hi => ?_, fun m hm => ?_, fun q hq => ?_⟩
  · rw [h'.frame, h.frame]
  · exact (h'.lane i (by rwa [h.legOf])).trans (h.lane i hi)
  · exact ⟨(h'.leg m hm).1.trans (h.leg m hm).1, (h'.leg m hm).2.trans (h.leg m hm).2⟩
  · obtain ⟨f, e⟩ := h.port q hq
    obtain ⟨f', e'⟩ := h'.port q hq
    exact ⟨f', by rw [e', e]⟩

theorem LegReach.foldl {α : Type} {f : State → α → State} {xs : List α}
    (hf : ∀ u, LegReach k s u → ∀ x ∈ xs, LegReach k u (f u x)) : LegReach k s (xs.foldl f s) := by
  suffices go : ∀ u, LegReach k s u → LegReach k s (xs.foldl f u) from go s (.refl k s)
  induction xs with
  | nil => exact fun u h => h
  | cons x xs ih =>
    exact fun u h => ih (fun v hv y hy => hf v hv y (.tail _ hy)) _ (h.trans (hf u h x (.head _)))

/-! ## What it reaches -/

theorem LegReach.setPort (s : State) (x : Port) : LegReach k s (s.setPort (legPort k) x) :=
  ⟨rfl, fun _ _ => rfl, fun _ _ => ⟨rfl, rfl⟩, fun q hq => ⟨(s.port q).bitmap, State.port_setPort_ne _ _ hq⟩⟩

theorem LegReach.track (before : State) (own : Option (PortId × State)) (s : State) :
    LegReach k s (track before own s) :=
  ⟨rfl, fun _ _ => rfl, fun _ _ => ⟨rfl, rfl⟩, fun q _ => ⟨_, (track_eq before own s).2 q⟩⟩

theorem LegReach.watch (s : State) (freeze : Bool) (timer : Timer) :
    LegReach k s { s with freeze := freeze, watchTimer := timer } :=
  ⟨rfl, fun _ _ => rfl, fun _ _ => ⟨rfl, rfl⟩, fun q _ => ⟨(s.port q).bitmap, rfl⟩⟩

theorem LegReach.setLeg (s : State) (c : LegConfig) : LegReach k s (s.setLeg k c) :=
  ⟨rfl, fun _ _ => rfl, fun _ hm => ⟨Tab.get_set_ne _ _ hm, rfl⟩, fun q _ => ⟨(s.port q).bitmap, rfl⟩⟩

theorem LegReach.setLane {i : LaneId} (hi : s.legOf i = some k) (l : Lane) : LegReach k s (s.setLane i l) :=
  ⟨rfl, fun _ hj => State.lane_setLane_ne s l fun e => hj (e ▸ hi), fun _ _ => ⟨rfl, rfl⟩,
    fun q _ => ⟨(s.port q).bitmap, rfl⟩⟩

/-- A lane that leaves CARRY moves lanes of its own leg alone (R56). -/
theorem LegReach.moveLane {i : LaneId} (hi : s.legOf i = some k) (f : Lane → Lane) : LegReach k s (s.moveLane i f) := by
  obtain ⟨only, -, -, leg⟩ := moveLane_eq s i f
  refine ⟨?_, fun j hj => ?_, fun m hm => ?_, fun q _ => ⟨(s.port q).bitmap, only.port q⟩⟩
  · rw [only]
  · have apart : j ≠ i := fun e => hj (e ▸ hi)
    rcases moveLane_other s f apart with e | ⟨-, -, -, same⟩
    · exact e
    · exact absurd (same.trans hi) hj
  · refine ⟨by rw [only], ?_⟩
    rw [leg, hi]
    split
    · exact Tab.get_set_ne _ _ hm
    · rfl

end Reach

/-! ## Lane operations of a leg host's actions (R146 to R154) -/

section Operations
variable {k : LegId} {s : State} {i : LaneId}

theorem legReach_settingApply (hi : s.legOf i = some k) (p : PortId) (v : ViewSide)
    (op : TxUnit → TxUnit × ReplyOutcome) : LegReach k s (settingApply s p i v op).1 := .setLane hi _

theorem legReach_laneRule {p : PortId} {a : Action} {args : ActionArgs} {g : LaneId → Lane → Lane}
    {out : Lane → LaneOutcome} (hi : s.legOf i = some k) (rule : LaneRule s p a args g out) :
    LegReach k s (laneOperation s p a args i).1 := by
  rw [rule.takes s (.refl p s)]
  exact .moveLane hi _

theorem legReach_laneOperation (hi : s.legOf i = some k) (p : PortId) (a : Action) (args : ActionArgs) :
    LegReach k s (laneOperation s p a args i).1 := by
  cases a with
  | retrain => exact legReach_laneRule hi (retrain_rule s p args)
  | hold => exact legReach_laneRule hi (hold_rule s p args)
  | release => exact legReach_laneRule hi (release_rule s p args)
  | clearCounters => exact legReach_laneRule hi (clear_rule s p args)
  | save | restore | discard | step | preset => exact legReach_laneRule hi (setting_rule rfl)
  | measure =>
    rw [laneOperation, measureLane_eq]
    exact .setLane hi _
  | freeze | thaw | applyProfile | softReset => exact .refl k s

theorem legReach_handedOperation (hi : s.legOf i = some k) (p : PortId) (a : Action) (args : ActionArgs) :
    LegReach k s (handedOperation s p a args i).1 := by
  unfold handedOperation
  split
  · split
    · exact .refl k s
    · exact legReach_settingApply hi p args.side _
  · exact legReach_laneOperation hi p a args

end Operations

/-! ## The leg host's actions (R144 to R148, R179) -/

section Actions
variable {k : LegId} {s : State}

theorem legReach_setAction (s : State) (f : ActionBlock → ActionBlock) : LegReach k s (s.setAction (legPort k) f) :=
  .setPort s _

theorem legReach_refuseAction (s : State) (o : Overall) (l : LaneOutcome) :
    LegReach k s (s.refuseAction (legPort k) o l) := legReach_setAction s _

theorem legReach_setStatus (s : State) (f : PortStatus → PortStatus) : LegReach k s (s.setStatus (legPort k) f) :=
  .setPort s _

theorem legReach_closeAction (s : State) : LegReach k s (s.closeAction (legPort k)) := by
  unfold State.closeAction
  split
  · exact legReach_setAction s _
  · exact .refl k s

/-- A leg's view shows the lanes of the leg alone (R21). -/
theorem legOf_viewLane_wired (hw : s.wiringLaw) {b : Fin 8} {i : LaneId} (hv : viewLane s (legPort k) b = some i) :
    s.legOf i = some k := by
  rw [viewLane_leg] at hv
  split at hv
  · exact hw k i (List.contains_iff_mem.mpr (List.mem_of_getElem? hv))
  · cases hv

theorem legReach_takeLane (hw : s.wiringLaw) (a : Action) (later : BitVec 8) (b : Fin 8) :
    LegReach k s (takeLane (legPort k) a later s b) := by
  unfold takeLane
  dsimp only
  split
  · exact .refl k s
  · split
    · exact legReach_setAction s _
    · next i hv =>
      split
      · split
        · exact legReach_setAction s _
        · exact .setPort s _
      · exact (legReach_laneOperation (legOf_viewLane_wired hw hv) _ a _).trans (legReach_setAction _ _)

/-- APPLY_PROFILE and SOFT_RESET are refused to a leg's host, and no other action touches the whole part but FREEZE and
THAW (R155, R175). -/
theorem legReach_partOperation {a : Action} (hm : a.usesMask = false) (h : judgeAction s (legPort k) a.code = .allow)
    (u : State) : LegReach k u (partOperation u a).1 := by
  have closed : a.code ≠ 13 ∧ a.code ≠ 14 := by
    rw [judgeAction_leg] at h
    split at h
    · cases h
    · next entry => exact ⟨fun c => entry (.inr (.inl c)), fun c => entry (.inr (.inr c))⟩
  cases a with
  | freeze =>
    show LegReach k u u.freezeWatch
    rw [freezeWatch_eq]
    exact .watch u _ _
  | thaw =>
    show LegReach k u u.thawWatch
    rw [thawWatch_eq]
    exact .watch u _ _
  | applyProfile => exact absurd rfl closed.1
  | softReset => exact absurd rfl closed.2
  | _ => cases hm

theorem legReach_runAction (hw : s.wiringLaw) {a : Action} (h : judgeAction s (legPort k) a.code = .allow)
    (later : BitVec 8) : LegReach k s (s.runAction (legPort k) a later) := by
  have ready := legReach_setAction (k := k) s fun x => { x with perLane := Tab.fill 8 .none }
  unfold State.runAction
  dsimp only
  refine ready.trans ?_
  split
  · exact (LegReach.foldl fun u hu b _ => legReach_takeLane (hu.wiringLaw (ready.wiringLaw hw)) a later b).trans
      (legReach_closeAction _)
  · next hm => exact (legReach_partOperation (Bool.eq_false_iff.mpr hm) h _).trans (legReach_setAction _ _)

theorem legReach_takeAction (hw : s.wiringLaw) (later : BitVec 8) :
    LegReach k s (s.takeAction (legPort k) later).1 := by
  unfold State.takeAction
  dsimp only
  split
  · next a passed =>
    obtain ⟨named, allowed⟩ := actionTest_passed passed
    exact legReach_runAction hw (code_of_actionOfCode named ▸ allowed) later
  · exact legReach_refuseAction s _ _
  · exact legReach_refuseAction s _ _

theorem legReach_takeHanded {op : HandedOp} (hi : s.legOf op.lane = some k) :
    LegReach k s (s.takeHanded (legPort k) op) := by
  have out : LegReach k s (s.withdrawn (legPort k) op) := .setPort s _
  unfold State.takeHanded
  dsimp only
  split
  · exact ((out.trans (legReach_handedOperation ((out.legOf _).trans hi) _ _ _)).trans (legReach_setAction _ _)).trans
      (legReach_closeAction _)
  · exact .setPort s _

/-- Operations still out are taken, each at a lane of the leg (R144, R148). -/
theorem legReach_settleHanded (h : s.handsOutLeg k) :
    LegReach k s (settleHanded s (legPort k)) ∧ (settleHanded s (legPort k)).handsOutLeg k := by
  unfold settleHanded
  generalize (s.port (legPort k)).handed.length = n
  induction n generalizing s with
  | zero => exact ⟨.refl k s, h⟩
  | succ n ih =>
    simp only [settleUpTo]
    split
    · exact ⟨.refl k s, h⟩
    · next op rest out =>
      have taken : LegReach k s (engineEvent s (s.takeHanded (legPort k) op)) :=
        (legReach_takeHanded (h op (out ▸ .head _))).trans (.track _ _ _)
      obtain ⟨reach, kept⟩ := ih (s := engineEvent s (s.takeHanded (legPort k) op)) fun op' ho => by
        rw [engineEvent_handed, takeHanded_handed] at ho
        exact (taken.legOf _).trans (h op' (List.mem_of_mem_filter ho))
      exact ⟨taken.trans reach, kept⟩

end Actions

/-! ## What a leg's host writes (R167, R170, R175, R177) -/

section Writes
variable {k : LegId} {s : State} {r : Record} {b : HoldingBuffer}

/-- The groups that the Access Policy Unit can allow a leg's host (R175, R176). -/
def legWritable : List FieldGroup := [.threshold, .retrain, .presets, .request, .counts, .bitmap, .mask]

theorem mem_legWritable_iff (g : FieldGroup) :
    g ∈ legWritable ↔ g.readOnly = false ∧ g ≠ .busy ∧ g.position.isSome = true := by
  cases g <;> decide

theorem mem_legWritable {g : FieldGroup} (h : judgeWrite s (legPort k) r g = .allow) : g ∈ legWritable := by
  unfold judgeWrite at h
  split at h
  · cases h
  · split at h
    · cases h
    · next unfixed =>
      split at h
      · next may =>
        simp only [fixedRefuses, decide_eq_true (legPort_ne_zero k), Bool.true_and, Bool.or_eq_true, not_or,
          decide_eq_true_eq] at unfixed
        obtain ⟨writable, notBusy, -⟩ := unfixed
        refine (mem_legWritable_iff g).mpr ⟨Bool.eq_false_iff.mpr writable, notBusy, ?_⟩
        unfold mayWrite at may
        rw [if_neg (legPort_ne_zero k)] at may
        cases position : g.position with
        | none =>
          rw [position] at may
          cases may
        | some n => rfl
      · cases h

/-- The only leg record that a leg's view maps is the leg's own (R170). -/
theorem resolve_leg_eq {block : Nat} {m : LegId} (h : resolve s (legPort k) block = some (.leg m)) : m = k := by
  unfold resolve at h
  rw [portLeg_legPort] at h
  simp only [ite_eq_iff, Option.map_eq_some_iff, Option.some.injEq, reduceCtorEq, and_false, false_or, exists_false,
    Record.leg.injEq, or_false] at h
  obtain ⟨-, -, -, -, -, -, -, e⟩ := h
  exact e.symm

theorem legReach_storeLegGroup {g : FieldGroup} (hg : g ≠ .busy) (s : State) :
    LegReach k s (storeLegGroup k g b s) := by
  unfold storeLegGroup
  dsimp only
  split
  · exact .setLeg s _
  · exact .setLeg s _
  · exact .setLeg s _
  · exact absurd rfl hg
  · exact .refl k s

theorem legReach_storeGroup (hr : ∀ m, r = .leg m → m = k) {g : FieldGroup} (hg : g ∈ legWritable) (s : State) :
    LegReach k s (storeGroup (legPort k) r b s g) := by
  unfold storeGroup
  split
  case h_8 => exact legReach_setAction s _
  case h_9 | h_10 | h_11 => exact .setPort s _
  case h_12 =>
    split
    · next m =>
      obtain rfl := hr m rfl
      refine legReach_storeLegGroup ?_ s
      rintro rfl
      exact absurd hg (by decide)
    · exact .refl k s
  all_goals exact absurd hg (by decide)

theorem legReach_storeGroups (hr : ∀ m, r = .leg m → m = k) : LegReach k s (storeGroups s (legPort k) r b) := by
  refine LegReach.foldl fun u _ g hg => legReach_storeGroup hr (mem_legWritable (s := s) (k := k) (r := r) ?_) u
  have allowed := of_decide_eq_true (List.mem_filter.mp hg).2
  unfold groupAnswer at allowed
  split at allowed
  · next h => exact h
  · exact allowed

theorem legReach_writeEffect (hw : s.wiringLaw) (block : Nat) (b : HoldingBuffer) (later : BitVec 8) :
    LegReach k s (writeEffect s (legPort k) block b later).2 := by
  unfold writeEffect
  split
  · dsimp only
    exact legReach_setStatus s _
  · next r hr =>
    have stored : LegReach k s (storeGroups s (legPort k) r b) :=
      legReach_storeGroups fun m e => resolve_leg_eq (e ▸ hr)
    dsimp only
    split
    · dsimp only
      exact (stored.trans (legReach_takeAction (stored.wiringLaw hw) later)).trans (legReach_setStatus _ _)
    · dsimp only
      exact stored.trans (legReach_setStatus _ _)

theorem legReach_writeStop (hw : s.wiringLaw) (hh : s.handsOutLeg k) (block : Nat) (b : HoldingBuffer)
    (later : BitVec 8) : LegReach k s (writeStop s (legPort k) block b later) := by
  have settled := (legReach_settleHanded hh).1
  unfold writeStop
  exact (settled.trans (legReach_writeEffect (settled.wiringLaw hw) block b later)).trans (.track _ _ _)

theorem legReach_hostWrite (hw : s.wiringLaw) (hh : s.handsOutLeg k) (block : Nat) (es : List (Nat × Byte))
    (later : BitVec 8) : LegReach k s (hostWrite s (legPort k) block es later) := by
  unfold hostWrite
  split
  · exact legReach_writeStop hw hh block _ later
  · exact .refl k s

theorem legReach_endWritePart (hw : s.wiringLaw) (hh : s.handsOutLeg k) (later : BitVec 8) :
    LegReach k s (endWritePart s (legPort k) later) := by
  unfold endWritePart
  dsimp only
  split
  · exact (legReach_writeStop hw hh _ _ later).trans (.setPort _ _)
  · exact .setPort s _

theorem legReach_endReadPart (s : State) (phase : PortPhase) : LegReach k s (endReadPart s (legPort k) phase) := by
  unfold endReadPart
  exact (LegReach.setPort s _).trans (.track _ _ _)

theorem legReach_endPart (hw : s.wiringLaw) (hh : s.handsOutLeg k) : LegReach k s (endPart s (legPort k)) := by
  unfold endPart
  split
  · exact .refl k s
  · exact legReach_endReadPart s _
  · exact legReach_endReadPart s _
  · exact legReach_endWritePart hw hh 0

end Writes

/-! ## The commands of a leg's host (R146, R150, R170, R174, R175) -/

/-- A command leaves a state within the reach of the leg's host. -/
def Reaches (k : LegId) (s : State) (o : Host.Outcome State Fault Refusal) : Prop := ∀ t, o = .next t → LegReach k s t

section Commands
variable {k : LegId} {s : State}

theorem Reaches.next {t : State} (h : LegReach k s t) : Reaches k s (.next t) := fun _ e => by
  cases e
  exact h

theorem Reaches.idle (k : LegId) (s : State) : Reaches k s (.next s) := .next (.refl k s)

theorem actionLaneOperation_reaches (hh : s.handsOutLeg k) (b : Fin 8) :
    Reaches k s (exec (.actionLaneOperation (legPort k) b) s) := by
  show Reaches k s (execActionLaneOperation (legPort k) b s)
  unfold execActionLaneOperation
  split
  · exact .idle k s
  · next op out =>
    exact .next ((legReach_takeHanded (hh op (List.mem_of_find?_eq_some out))).trans (.track _ _ _))

theorem busStartAddress_reaches (hw : s.wiringLaw) (hh : s.handsOutLeg k) (addr : BitVec 7) (dir : BusDir) :
    Reaches k s (exec (.busStartAddress (legPort k) addr dir) s) := by
  obtain ⟨settled, kept⟩ := legReach_settleHanded hh
  have ended := settled.trans (legReach_endPart (settled.wiringLaw hw) kept)
  show Reaches k s (execBusStartAddress (legPort k) addr dir s)
  unfold execBusStartAddress
  split
  · dsimp only
    split
    · exact .next (ended.trans (.setPort _ _))
    · exact .next (ended.trans (.setPort _ _))
  · exact .idle k s

theorem pointerByte_reaches (b : Byte) : Reaches k s (exec (.pointerByte (legPort k) b) s) := by
  show Reaches k s (execPointerByte (legPort k) b s)
  unfold execPointerByte
  split
  · exact .next (.setPort s _)
  · exact .next (.setPort s _)
  · exact .idle k s

theorem dataByteWritten_reaches (b : Byte) : Reaches k s (exec (.dataByteWritten (legPort k) b) s) := by
  show Reaches k s (execDataByteWritten (legPort k) b s)
  unfold execDataByteWritten
  split
  · exact .next (.setPort s _)
  · exact .idle k s

theorem readByteSent_reaches : Reaches k s (exec (.readByteSent (legPort k)) s) := by
  show Reaches k s (execReadByteSent (legPort k) s)
  unfold execReadByteSent
  split
  · exact .next (.setPort s _)
  · exact .idle k s

theorem hostNack_reaches : Reaches k s (exec (.hostNack (legPort k)) s) := by
  show Reaches k s (execHostNack (legPort k) s)
  unfold execHostNack
  split
  · exact .next (legReach_endReadPart s _)
  · exact .idle k s

theorem readPartEnd_reaches : Reaches k s (exec (.readPartEnd (legPort k)) s) := by
  show Reaches k s (execReadPartEnd (legPort k) s)
  unfold execReadPartEnd
  split
  · exact .next (legReach_endReadPart s _)
  · exact .idle k s

theorem registerWrite_reaches (hw : s.wiringLaw) (hh : s.handsOutLeg k) (later : BitVec 8) :
    Reaches k s (exec (.registerWrite (legPort k) later) s) := by
  show Reaches k s (execRegisterWrite (legPort k) later s)
  unfold execRegisterWrite
  split
  · exact .next (legReach_endWritePart hw hh later)
  · exact .idle k s

theorem exec_reaches {c : Instr} (hc : commandPort c = some (legPort k)) (hw : s.wiringLaw) (hh : s.handsOutLeg k) :
    Reaches k s (exec c s) := by
  have stop : ∀ block es later, Reaches k s (.next (hostWrite s (legPort k) block es later)) := fun block es later =>
    .next (legReach_hostWrite hw hh block es later)
  have issued : ∀ c {code args}, issuedAction c = some (legPort k, code, args) → Reaches k s (exec c s) :=
    fun c _ _ h => by
      rw [exec_issued h]
      exact stop _ _ _
  cases c <;> cases hc
  case actionLaneOperation b => exact actionLaneOperation_reaches hh b
  case busStartAddress addr dir => exact busStartAddress_reaches hw hh addr dir
  case pointerByte b => exact pointerByte_reaches b
  case dataByteWritten b => exact dataByteWritten_reaches b
  case readByteSent => exact readByteSent_reaches
  case hostNack => exact hostNack_reaches
  case readPartEnd => exact readPartEnd_reaches
  case registerWrite later => exact registerWrite_reaches hw hh later
  case countsZero | bitmapClear | alertMaskWrite => exact stop _ _ _
  all_goals exact issued _ rfl

end Commands

/-- Settles O57: every command of a leg's host stays within the reach of the host. -/
theorem legHostReachesOnlyItsLeg : Obligations.LegHostReachesOnlyItsLeg := by
  intro c s t k hc hw hh ht
  obtain ⟨frame, lane, leg, port⟩ := exec_reaches hc hw hh t ht
  refine ⟨lane, leg, fun q hq => ?_, ?_⟩
  · obtain ⟨f, e⟩ := port q hq
    rw [e]
  · rw [frame]
    exact ⟨rfl, rfl, rfl, rfl, rfl, rfl, rfl, rfl, rfl, rfl, rfl, rfl, rfl, rfl, rfl, rfl⟩

end Sys2Proof.Machine
end

section
/-! SUPPORT. The parts of a bus transaction: what the end of a part keeps for the next start, and what bytes do to pointer
and buffer (R161 to R167). -/

namespace Sys2Proof.Machine

/-! ## What a start at port `p` depends on -/

/-- The part state, the wiring and the operations out through port `p` are as before: what a start looks at beside the port's
phase (R161; log 10). -/
structure StartKept (p : PortId) (s t : State) : Prop where
  part : t.part = s.part
  wiring : t.wiring = s.wiring
  handed : (t.port p).handed = (s.port p).handed

theorem StartKept.refl (p : PortId) (s : State) : StartKept p s s := ⟨rfl, rfl, rfl⟩

theorem StartKept.trans {p : PortId} {a b c : State} (h : StartKept p a b) (h' : StartKept p b c) : StartKept p a c :=
  ⟨h'.part.trans h.part, h'.wiring.trans h.wiring, h'.handed.trans h.handed⟩

theorem StartKept.foldl {α : Type} {p : PortId} (f : State → α → State) (h : ∀ s a, StartKept p s (f s a)) (xs : List α)
    (s : State) : StartKept p s (xs.foldl f s) := by
  induction xs generalizing s with
  | nil => exact .refl p s
  | cons x xs ih => exact (h s x).trans (ih _)

theorem StartKept.setPort {p : PortId} (s : State) {x : Port} (h : x.handed = (s.port p).handed) :
    StartKept p s (s.setPort p x) := ⟨rfl, rfl, by rw [State.port_setPort_self, h]⟩

theorem StartKept.setAction (p : PortId) (s : State) (f : ActionBlock → ActionBlock) : StartKept p s (s.setAction p f) :=
  .setPort s rfl

theorem StartKept.setStatus (p : PortId) (s : State) (f : PortStatus → PortStatus) : StartKept p s (s.setStatus p f) :=
  .setPort s rfl

theorem StartKept.of_lanesOnly {s t : State} (p : PortId) (h : LanesOnly s t) : StartKept p s t := by
  refine ⟨?_, ?_, by rw [h.port]⟩ <;> rw [h]

theorem StartKept.of_quiet {s t : State} (p : PortId) (h : t.quiet = s.quiet) : StartKept p s t :=
  ⟨by rw [eq_of_quiet h], by rw [eq_of_quiet h], by rw [port_of_quiet h p]⟩

theorem StartKept.track (p : PortId) (b : State) (own : Option (PortId × State)) (s : State) :
    StartKept p s (track b own s) := .of_quiet p (track_quiet b own s)

theorem StartKept.acknowledges {p : PortId} {s t : State} (h : StartKept p s t) : acknowledges t p = acknowledges s p := by
  unfold Machine.acknowledges
  rw [h.part, h.wiring]

/-- An action none of whose lanes takes its operation later hands out nothing (R148; log 10). -/
theorem startKept_takeLane (p : PortId) (a : Action) (s : State) (b : Fin 8) : StartKept p s (takeLane p a 0 s b) := by
  unfold takeLane
  dsimp only
  split
  · exact .refl p s
  · split
    · exact .setAction p s _
    · rw [if_neg (by simp)]
      exact (StartKept.of_lanesOnly p (laneOperation_lanesOnly s p a _ _)).trans (.setAction p _ _)

theorem startKept_closeAction (p : PortId) (s : State) : StartKept p s (s.closeAction p) := by
  unfold State.closeAction
  split
  · exact .setAction p s _
  · exact .refl p s

theorem startKept_apply (p : PortId) (s : State) : StartKept p s s.apply.1 := by
  rcases apply_cases s with ⟨r, k, e⟩ | ⟨-, -, e⟩ <;> rw [e] <;> exact ⟨rfl, rfl, rfl⟩

theorem startKept_partOperation (p : PortId) (s : State) (a : Action) : StartKept p s (partOperation s a).1 := by
  have applied := startKept_apply p s
  cases a <;> simp only [partOperation]
  case freeze => unfold State.freezeWatch; split <;> exact ⟨rfl, rfl, rfl⟩
  case thaw => unfold State.thawWatch; split <;> exact ⟨rfl, rfl, rfl⟩
  case applyProfile =>
    split
    · next u e =>
      rw [e] at applied
      exact applied.trans (.of_quiet p (markApply_eq s u).1)
    · next u r _ e =>
      rw [e] at applied
      exact applied
  case softReset => unfold State.softReset; split <;> exact ⟨rfl, rfl, rfl⟩
  all_goals exact .refl p s

theorem startKept_refuseAction (p : PortId) (s : State) (o : Overall) (l : LaneOutcome) :
    StartKept p s (s.refuseAction p o l) := .setAction p s _

theorem startKept_takeAction (p : PortId) (s : State) : StartKept p s (s.takeAction p 0).1 := by
  unfold State.takeAction
  dsimp only
  split
  · next a _ =>
    unfold State.runAction
    dsimp only
    split
    · exact ((StartKept.setAction p s _).trans (.foldl _ (startKept_takeLane p a) _ _)).trans (startKept_closeAction p _)
    · exact ((StartKept.setAction p s _).trans (startKept_partOperation p _ a)).trans (StartKept.setAction p _ _)
  · exact startKept_refuseAction p s _ _
  · exact startKept_refuseAction p s _ _

theorem startKept_storeLegGroup (p : PortId) (k : LegId) (g : FieldGroup) (b : HoldingBuffer) (s : State) :
    StartKept p s (storeLegGroup k g b s) := by
  have leg : ∀ c, StartKept p s (s.setLeg k c) := fun c => ⟨rfl, rfl, rfl⟩
  unfold storeLegGroup
  dsimp only
  split
  case h_4 => exact ⟨rfl, rfl, rfl⟩
  case h_5 => exact .refl p s
  all_goals exact leg _

theorem startKept_storeGroup (p : PortId) (r : Record) (b : HoldingBuffer) (s : State) (g : FieldGroup) :
    StartKept p s (storeGroup p r b s g) := by
  have config : ∀ h w d k pp t, StartKept p s { s with
      hysteresis := h, pWatch := w, dDrop := d, kAlarm := k, pendingProfile := pp, policy := t } :=
    fun _ _ _ _ _ _ => ⟨rfl, rfl, rfl⟩
  unfold storeGroup
  split
  case h_8 => exact .setAction p s _
  case h_9 | h_10 | h_11 => exact .setPort s rfl
  case h_12 =>
    split
    · exact startKept_storeLegGroup p _ _ b s
    · exact .refl p s
  all_goals exact config _ _ _ _ _ _

/-- A write stop in which no lane takes its operation later (R167). -/
theorem startKept_writeStop {p : PortId} {s : State} (hout : (s.port p).handed = []) (block : Nat) (b : HoldingBuffer) :
    StartKept p s (writeStop s p block b 0) := by
  have effect : StartKept p s (writeEffect s p block b 0).2 := by
    unfold writeEffect
    split
    · dsimp only
      exact .setStatus p s _
    · next r _ =>
      have stored : StartKept p s (storeGroups s p r b) := .foldl _ (startKept_storeGroup p r b) _ s
      dsimp only
      split
      · dsimp only
        exact (stored.trans (startKept_takeAction p _)).trans (.setStatus p _ _)
      · dsimp only
        exact stored.trans (.setStatus p _ _)
  exact effect.trans (.of_quiet p (writeStop_quiet hout block b 0))

theorem startKept_endWritePart {p : PortId} {s : State} (hout : (s.port p).handed = []) :
    StartKept p s (endWritePart s p 0) := by
  unfold endWritePart
  dsimp only
  split
  · next block _ => exact (startKept_writeStop hout block _).trans (.setPort _ rfl)
  · exact .setPort s rfl

theorem startKept_endReadPart (p : PortId) (s : State) (phase : PortPhase) : StartKept p s (endReadPart s p phase) :=
  (StartKept.setPort s (x := { s.port p with
    phase := phase, snapshot := none, sentRefused := false, line := .released,
    status := if (s.port p).sentRefused then (s.port p).status.afterRefusedRead else (s.port p).status }) rfl).trans
    (.track p s none _)

/-! ## The end of a part (R162) -/

theorem endWritePart_phase (s : State) (p : PortId) (later : BitVec 8) : ((endWritePart s p later).port p).phase = .idle :=
  congrArg Port.phase (State.port_setPort_self _ p _)

/-- The end of a read part, but for the change bitmaps (R165). -/
theorem endReadPart_quiet (s : State) (p : PortId) (phase : PortPhase) : (endReadPart s p phase).quiet =
    (s.setPort p { s.port p with
      phase := phase, snapshot := none, sentRefused := false, line := .released,
      status := if (s.port p).sentRefused then (s.port p).status.afterRefusedRead else (s.port p).status }).quiet :=
  engineEvent_quiet s _

theorem endReadPart_phase (s : State) (p : PortId) (phase : PortPhase) :
    ((endReadPart s p phase).port p).phase = phase := by
  rw [port_of_quiet (endReadPart_quiet s p phase) p]
  exact congrArg Port.phase (State.port_setPort_self s p _)

theorem endPart_write {s : State} {p : PortId} (h : (s.port p).phase.isWrite = true) :
    endPart s p = endWritePart s p 0 := by
  unfold endPart
  split <;> next e => first | rfl | (rw [e] at h; cases h)

theorem endPart_read {s : State} {p : PortId} (h : (s.port p).phase = .reading ∨ (s.port p).phase = .readEnded) :
    endPart s p = endReadPart s p .idle := by
  unfold endPart
  rcases h with e | e <;> rw [e]

/-- A write part without a data byte (log 28). -/
theorem endWritePart_empty {s : State} {p : PortId} (later : BitVec 8) (h : (s.port p).buffer = ⟨none, []⟩) :
    endWritePart s p later = s.setPort p { s.port p with phase := .idle, line := .released } := by
  unfold endWritePart
  rw [h]
  exact congrArg (fun b => s.setPort p { s.port p with phase := .idle, buffer := b, line := .released }) h.symm

/-! ## BUS_START_ADDRESS (R161, R162) -/

/-- A start at an idle port with no operation out. -/
theorem busStart_idle {s : State} {p : PortId} (addr : BitVec 7) (dir : BusDir) (hack : acknowledges s p = true)
    (hidle : (s.port p).phase = .idle) (hout : (s.port p).handed = []) :
    exec (.busStartAddress p addr dir) s = .next (s.setPort p
      (if addr = 0x3A#7 then
        { s.port p with phase := if dir = .write then .pointerHigh else .reading, line := .ack }
      else { s.port p with phase := .idle, line := .released })) := by
  have settled : endPart (settleHanded s p) p = s := by
    rw [settleHanded_nil hout]
    unfold endPart
    rw [hidle]
  show execBusStartAddress p addr dir s = _
  unfold execBusStartAddress
  rw [if_pos hack, settled]
  by_cases h : addr = 0x3A#7
  · have phase : startPhase dir = if dir = .write then .pointerHigh else .reading := by cases dir <;> rfl
    rw [if_pos (show addr = portAddress from h), if_pos h, phase]
  · rw [if_neg (show ¬ addr = portAddress from h), if_neg h]

/-- A start in a part acts as the part's end and then a start at the idle port (R162). -/
theorem busStart_repeated {s u : State} {p : PortId} (addr : BitVec 7) (dir : BusDir) (hack : acknowledges s p = true)
    (hout : (s.port p).handed = []) (hend : endPart s p = u) (hidle : (u.port p).phase = .idle) (kept : StartKept p s u) :
    exec (.busStartAddress p addr dir) s = exec (.busStartAddress p addr dir) u := by
  have there : endPart (settleHanded u p) p = u := by
    rw [settleHanded_nil (kept.handed.trans hout)]
    unfold endPart
    rw [hidle]
  show execBusStartAddress p addr dir s = execBusStartAddress p addr dir u
  unfold execBusStartAddress
  rw [settleHanded_nil hout, hend, there, kept.acknowledges, if_pos hack, if_pos hack]

/-! ## POINTER_BYTE and DATA_BYTE_WRITTEN (R163, R166) -/

theorem lookup_cons_entry (off o : Nat) (b : Byte) (rest : List (Nat × Byte)) :
    ((off, b) :: rest).lookup o = if o = off then some b else rest.lookup o := by
  rw [List.lookup_cons]
  split
  · next h => rw [if_pos (beq_iff_eq.mp h)]
  · next h => rw [if_neg (beq_eq_false_iff_ne.mp h)]

/-- A byte placed in a list of entries is found at its offset, and nothing else is found otherwise, in whatever order the
entries stand. -/
theorem insertEntry_lookup (off o : Nat) (b : Byte) (es : List (Nat × Byte)) :
    (insertEntry off b es).lookup o = if o = off then some b else es.lookup o := by
  induction es with
  | nil => exact lookup_cons_entry off o b []
  | cons e rest ih =>
    obtain ⟨o', x⟩ := e
    simp only [insertEntry]
    split
    · exact lookup_cons_entry off o b _
    · split
      · next heq =>
        subst heq
        rw [lookup_cons_entry, lookup_cons_entry]
        split <;> rfl
      · next hne =>
        rw [lookup_cons_entry, lookup_cons_entry, ih]
        split
        · next h => rw [if_neg fun h' => hne (h'.symm.trans h)]
        · rfl

/-- DATA_BYTE_WRITTEN in a write part. -/
theorem dataByteWritten_eq {s : State} {p : PortId} (b : Byte) (h : (s.port p).phase = .writing) :
    exec (.dataByteWritten p b) s = .next (s.setPort p { s.port p with
      buffer := (s.port p).buffer.put (s.port p).pointer b, pointer := advance (s.port p).pointer, line := .ack }) := by
  show execDataByteWritten p b s = _
  unfold execDataByteWritten
  rw [h]

/-- Settles O28: a start in a part is the part's end and a start at the idle port it leaves. -/
theorem busPartsBeginAndFillTheBuffer : Obligations.BusPartsBeginAndFillTheBuffer := by
  refine ⟨fun p addr dir s => ⟨fun hack => ?_, busStart_idle addr dir, fun hack hw hout => ?_, fun hack hr hout => ?_⟩,
    fun p b s => ⟨fun h => ?_, fun high h => ?_, fun h => ?_⟩⟩
  · show execBusStartAddress p addr dir s = _
    unfold execBusStartAddress
    rw [hack]
    rfl
  · have stop : exec (.registerWrite p 0) s = .next (endWritePart s p 0) := if_pos hw
    exact ⟨_, stop, busStart_repeated addr dir hack hout (endPart_write hw) (endWritePart_phase s p 0)
      (startKept_endWritePart hout), endWritePart_empty 0⟩
  · have stop : exec (.readPartEnd p) s = .next (endReadPart s p .idle) :=
      if_pos (by rcases hr with e | e <;> rw [e] <;> rfl)
    exact ⟨_, stop, busStart_repeated addr dir hack hout (endPart_read hr) (endReadPart_phase s p .idle)
      (startKept_endReadPart p s .idle)⟩
  · show execPointerByte p b s = _
    unfold execPointerByte
    rw [h]
  · show execPointerByte p b s = _
    unfold execPointerByte
    rw [h]
  · have port := State.port_setPort_self s p { s.port p with
      buffer := (s.port p).buffer.put (s.port p).pointer b, pointer := advance (s.port p).pointer, line := .ack }
    refine ⟨_, dataByteWritten_eq b h, ?_⟩
    dsimp only
    rw [port]
    obtain ⟨inBlock, offset⟩ := advance_block_offset (s.port p).pointer
    refine ⟨?_, fun o ho => ?_, ?_, inBlock, offset, rfl⟩
    · exact (insertEntry_lookup _ _ b _).trans (if_pos rfl)
    · exact (insertEntry_lookup _ _ b _).trans (if_neg ho)
    · unfold HoldingBuffer.put
      cases (s.port p).buffer.block <;> rfl

end Sys2Proof.Machine
end

section
/-! SUPPORT. What a read part sends: the byte of a record at an offset as a port's view shows it (R163 to R165, R170, R172,
R177). -/

namespace Sys2Proof.Machine

theorem getD_map_fst {α β : Type} (x : α) (xs : List (α × β)) (n : Nat) :
    (xs.map Prod.fst).getD n x = xs[n]?.elim x Prod.fst := by
  rw [List.getD_eq_getElem?_getD, List.getElem?_map]
  cases xs[n]? <;> rfl

theorem padTo64_getD {α : Type} (x : α) (xs : List α) {n : Nat} (h : n < 64) : (padTo64 x xs).getD n x = xs.getD n x := by
  simp only [padTo64, List.getD_eq_getElem?_getD, List.getElem?_take_of_lt h, List.getElem?_append, List.getElem?_replicate]
  split
  · rfl
  · next hn => rw [List.getElem?_eq_none (by omega)]; split <;> rfl

/-- A byte of a record, 0x00 where the port may not read its group (R177). -/
def shownByte (s : State) (p : PortId) (x : FieldByte) : Byte := if mayRead s p x.1 then x.2 else 0

/-- The byte that port `p`'s view shows of a record at an offset: 0x00 at an empty offset and beyond a leg's share of the part
block (R164, R170, R177). -/
def byteShown (s : State) (p : PortId) (r : Record) (off : Nat) : Byte :=
  if p ≠ 0 ∧ r = .part ∧ shownPart ≤ off then 0 else (record s p r)[off]?.elim 0 (shownByte s p)

theorem viewBytes_getElem? (s : State) (p : PortId) (r : Record) (off : Nat) : (viewBytes s p r)[off]? =
    if p ≠ 0 ∧ r = .part ∧ shownPart ≤ off then none
    else (record s p r)[off]?.map fun x => if mayRead s p x.1 then (x.2, false) else (0, true) := by
  unfold viewBytes
  dsimp only
  rw [List.getElem?_map]
  by_cases leg : p ≠ 0 ∧ r = .part
  · rw [if_pos leg, List.getElem?_take]
    by_cases h : off < shownPart
    · rw [if_pos h, if_neg fun c => absurd c.2.2 (by omega)]
    · rw [if_neg h, if_pos ⟨leg.1, leg.2, by omega⟩]
      rfl
  · rw [if_neg leg, if_neg fun c => leg ⟨c.1, c.2.1⟩]

/-- A captured block shows its record, byte by byte (R164). -/
theorem capture_mapped {s : State} {p : PortId} {block off : Nat} {r : Record} (h : resolve s p block = some r)
    (ho : off < 64) : (capture s p block).bytes.getD off 0 = byteShown s p r off := by
  unfold capture byteShown
  rw [h, padTo64_getD 0 _ ho, getD_map_fst, viewBytes_getElem?]
  split
  · rfl
  · cases (record s p r)[off]? with
    | none => rfl
    | some x =>
      show (if mayRead s p x.1 then (x.2, false) else ((0 : Byte), true)).1 = shownByte s p x
      unfold shownByte
      split <;> rfl

/-- An unmapped block reads 0x00 throughout (R172). -/
theorem capture_unmapped {s : State} {p : PortId} {block off : Nat} (h : resolve s p block = none) (ho : off < 64) :
    (capture s p block).bytes.getD off 0 = 0 := by
  unfold capture
  rw [h, padTo64_getD 0 _ ho]
  rfl

theorem byteShown_refused {s : State} {p : PortId} {r : Record} {off : Nat}
    (h : mayRead s p (groupAt s p r off) = false) : byteShown s p r off = 0 := by
  unfold byteShown
  unfold groupAt at h
  split
  · rfl
  · cases e : (record s p r)[off]? with
    | none => rfl
    | some x =>
      rw [e] at h
      exact if_neg (by rw [show mayRead s p x.1 = false from h]; nofun)

/-- The port after READ_BYTE_SENT (R163, R164). -/
def Port.served (x : Port) (snap : Snapshot) : Port :=
  { x with
    snapshot := some snap
    sentRefused := x.sentRefused || snap.refused.getD (pointerOffset x.pointer) false
    line := .data (snap.bytes.getD (pointerOffset x.pointer) 0)
    pointer := advance x.pointer }

theorem readByteSent_eq {s : State} {p : PortId} (h : (s.port p).phase = .reading) :
    exec (.readByteSent p) s = .next (s.setPort p ((s.port p).served (currentSnapshot s p))) := by
  show execReadByteSent p s = _
  unfold execReadByteSent
  rw [h]
  rfl

theorem currentSnapshot_first {s : State} {p : PortId} (h : (s.port p).snapshot = none) :
    currentSnapshot s p = capture s p (pointerBlock (s.port p).pointer) := by
  unfold currentSnapshot
  rw [h]
  rfl

/-- Settles O29: the snapshot in use is the one captured at the part's first byte, and the ends of a read part differ in the
phase that they leave. -/
theorem readPartServesTheSnapshot : Obligations.ReadPartServesTheSnapshot := by
  refine fun p s => ⟨fun h => ?_, fun h hs => ?_, fun h => ?_⟩
  · obtain ⟨inBlock, offset⟩ := advance_block_offset (s.port p).pointer
    have line : (s.port p).snapshot = none → (capture s p ((s.port p).pointer.toNat / 64)).bytes.getD
        ((s.port p).pointer.toNat % 64) 0 = 0 →
        ((s.setPort p ((s.port p).served (currentSnapshot s p))).port p).line = .data 0 := fun hn hz => by
      rw [State.port_setPort_self, currentSnapshot_first hn]
      exact congrArg DataLine.data hz
    have hlt := pointerOffset_lt (s.port p).pointer
    refine ⟨_, readByteSent_eq h, ?_, ?_, ?_, fun hn hr => line hn (capture_unmapped hr hlt),
      fun r hn hr hm => line hn ((capture_mapped hr hlt).trans (byteShown_refused hm))⟩
    · rw [State.port_setPort_self]
      unfold currentSnapshot
      cases (s.port p).snapshot <;> rfl
    · rw [State.port_setPort_self]
      exact inBlock
    · rw [State.port_setPort_self]
      exact offset
  · exact ⟨_, if_pos ⟨h, Option.isSome_iff_ne_none.mpr hs⟩, endReadPart_quiet s p .readEnded⟩
  · exact ⟨_, if_pos (by rcases h with e | e <;> rw [e] <;> rfl), endReadPart_quiet s p .idle⟩

end Sys2Proof.Machine
end

section
/-! SUPPORT. The fields of every block but the tuning records, as a read part shows them (R21, R169 to R171, R177, R189,
R190). -/

namespace Sys2Proof.Machine

/-! ## Codes and packed bits (12.7, R189) -/

theorem fomCode_eq (x : Fom) : fomCode x = x.getD 255 := by cases x <;> rfl

theorem optByte_eq {n : Nat} (x : Option (Fin n)) : optByte x = x.elim 255 fun v => v.val := by cases x <;> rfl

theorem orderCode_eq (x : LaneOrder) : orderCode x = if x = .linear then 0 else 1 := by cases x <;> rfl

theorem sideCode_eq (x : ViewSide) : sideCode x = if x = .near then 0 else 1 := by cases x <;> rfl

theorem directionCode_eq (x : Direction) : directionCode x = if x = .minus then 0 else 1 := by cases x <;> rfl

theorem discardedCode_eq (x : Option Nat) : discardedCode x = x.getD 0xFFFF := by cases x <;> rfl

theorem packBits_nil : packBits [] = 0 := rfl

theorem packBits_flag (b : Bool) (rest : List (Nat × Nat)) :
    packBits ((1, flagCode b) :: rest) = flagCode b + 2 * packBits rest := by cases b <;> rfl

theorem packBits_polarity (x : Polarity) (rest : List (Nat × Nat)) :
    packBits ((1, polarityCode x) :: rest) = (if x = .inverted then 1 else 0) + 2 * packBits rest := by cases x <;> rfl

theorem BusyMask.bits_eq (m : BusyMask) :
    m.bits = flagCode m.leg + 2 * flagCode m.lane + 4 * flagCode m.tune + 8 * flagCode m.action := by
  simp only [BusyMask.bits, packBits_flag, packBits_nil]
  omega

theorem HoldSet.bits_eq (h : HoldSet) : h.bits = flagCode h.switch + 2 * flagCode h.leg + 4 * flagCode h.line := by
  simp only [HoldSet.bits, packBits_flag, packBits_nil]
  omega

theorem segmentBits_eq (a b : Bool) : packBits [(1, flagCode a), (1, flagCode b)] = flagCode a + 2 * flagCode b := by
  simp only [packBits_flag, packBits_nil]
  omega

theorem pairBits_eq (x : PolarityPair) : packBits [(1, polarityCode x.rx), (1, polarityCode x.tx)] =
    (if x.rx = .inverted then 1 else 0) + 2 * (if x.tx = .inverted then 1 else 0) := by
  simp only [packBits_polarity, packBits_nil]
  omega

theorem RouteEntry.polarityBits_eq (r : RouteEntry) : r.polarityBits =
    (if r.cPolarity.rx = .inverted then 1 else 0) + 2 * (if r.cPolarity.tx = .inverted then 1 else 0) +
      4 * (if r.sPolarity.rx = .inverted then 1 else 0) + 8 * (if r.sPolarity.tx = .inverted then 1 else 0) := by
  simp only [RouteEntry.polarityBits, packBits_polarity, packBits_nil]
  omega

theorem byte_mod (n : Nat) : byte (n % 256) = byte n := by
  apply BitVec.eq_of_toNat_eq
  simp [byte]

theorem byte_toNat (b : Byte) : byte b.toNat = b := by simp [byte]

/-! ## Entries of a record -/

theorem Tab.list_eq {n : Nat} {α : Type} (t : Tab n α) : t.list = List.ofFn t.get := by
  obtain ⟨xs, rfl⟩ := t
  exact List.ofFn_getElem.symm

theorem flagBytes_eq (x : BitVec 20) : flagBytes x = List.ofFn fun n : Fin 3 => byte (x.toNat / 256 ^ n.val % 256) := by
  simp only [byte_mod]
  simp [flagBytes, List.ofFn_succ]

/-! ## The byte shown (R164, R170, R177) -/

section Shown
variable {s : State} {p : PortId} {r : Record} {off : Nat} {g : FieldGroup}

theorem byteShown_of_getElem? {x : FieldByte} (h : (record s p r)[off]? = some x) (hr : p = 0 ∨ r ≠ .part ∨ off < shownPart) :
    byteShown s p r off = shownByte s p x := by
  unfold byteShown
  rw [if_neg (by rintro ⟨h0, hp, hl⟩; rcases hr with e | e | e <;> first | contradiction | omega), h]
  rfl

/-- A field of a group that the policy table does not cover (R177). -/
theorem byteShown_plain {b : Byte} (h : (record s p r)[off]? = some (g, b)) (hg : g.position = none)
    (hr : p = 0 ∨ r ≠ .part ∨ off < shownPart) : byteShown s p r off = b := by
  rw [byteShown_of_getElem? h hr]
  refine if_pos ?_
  unfold mayRead
  rw [hg]
  split <;> rfl

/-- A group with a read entry is read through M0, and through a leg port where the entry allows it (R177). -/
theorem mayRead_policed {n : Nat} (s : State) (p : PortId) (hg : g.position = some n) :
    mayRead s p g = decide (p = 0 ∨ s.policy.read.getLsbD n = true) := by
  unfold mayRead
  rw [hg]
  by_cases h0 : p = 0 <;> simp [h0]

/-- A field of a group with a read entry: 0x00 where the entry refuses it to a leg port (R177). -/
theorem byteShown_policed {n v : Nat} (h : (record s p r)[off]? = some (g, byte v)) (hg : g.position = some n)
    (hr : r ≠ .part) :
    byteShown s p r off = BitVec.ofNat 8 (if p = 0 ∨ s.policy.read.getLsbD n = true then v else 0) := by
  rw [byteShown_of_getElem? h (.inr (.inl hr))]
  unfold shownByte
  rw [mayRead_policed s p hg]
  by_cases hm : p = 0 ∨ s.policy.read.getLsbD n = true
  · rw [if_pos (decide_eq_true hm), if_pos hm]
    rfl
  · rw [if_neg (by rw [decide_eq_false hm]; nofun), if_neg hm]
    rfl

/-- An offset that carries no field (R189). -/
theorem byteShown_blank (h : (record s p r)[off]? = none ∨ (record s p r)[off]? = some (.empty, 0)) :
    byteShown s p r off = 0 := by
  unfold byteShown
  split
  · rfl
  · rcases h with e | e <;> rw [e]
    · rfl
    · unfold Option.elim shownByte
      dsimp only
      split <;> rfl

theorem byteShown_beyond (h : (record s p r).length ≤ off) : byteShown s p r off = 0 :=
  byteShown_blank (.inl (List.getElem?_eq_none h))

/-- A leg's view shows the part block up to 0x17 (R170). -/
theorem byteShown_hiddenPart (h0 : p ≠ 0) (h : shownPart ≤ off) : byteShown s p .part off = 0 := if_pos ⟨h0, rfl, h⟩

end Shown

/-! ## The first byte of a read part -/

/-- A port's data line at the first byte of a read part: the byte that its view shows of the record behind the block (R164). -/
def FirstByte (s : State) (p : PortId) (block off : Nat) (line : DataLine) : Prop :=
  ∀ r, resolve s p block = some r → line = .data (byteShown s p r off)

section FirstByte
variable {s : State} {p : PortId} {block off : Nat} {line : DataLine} {r : Record}

/-- A field of a group without a read entry. -/
theorem FirstByte.plain (h : FirstByte s p block off line) (hr : resolve s p block = some r) ⦃g : FieldGroup⦄
    ⦃b : Byte⦄ ⦃o v : Nat⦄ (hb : (record s p r)[o]? = some (g, b)) (hg : g.position = none)
    (hp : p = 0 ∨ r ≠ .part ∨ o < shownPart) (hv : b = byte v) (ho : off = o) : line = .data (BitVec.ofNat 8 v) := by
  subst ho hv
  rw [h r hr, byteShown_plain hb hg hp]
  rfl

/-- A field of a group with a read entry. -/
theorem FirstByte.policed (h : FirstByte s p block off line) (hr : resolve s p block = some r) (hp : r ≠ .part)
    ⦃g : FieldGroup⦄ ⦃b : Byte⦄ ⦃o n v : Nat⦄ (hb : (record s p r)[o]? = some (g, b)) (hg : g.position = some n)
    (hv : b = byte v) (ho : off = o) :
    line = .data (BitVec.ofNat 8 (if p = 0 ∨ s.policy.read.getLsbD n = true then v else 0)) := by
  subst ho hv
  rw [h r hr, byteShown_policed hb hg hp]

/-- A number over two offsets, low byte first. -/
theorem FirstByte.policedTwo (h : FirstByte s p block off line) (hr : resolve s p block = some r) (hp : r ≠ .part)
    ⦃g : FieldGroup⦄ ⦃o n v : Nat⦄ (hlo : (record s p r)[o]? = some (g, byte v))
    (hhi : (record s p r)[o + 1]? = some (g, byte (v / 256))) (hg : g.position = some n) :
    (off = o →
      line = .data (BitVec.ofNat 8 (if p = 0 ∨ s.policy.read.getLsbD n = true then v % 256 else 0))) ∧
    (off = o + 1 →
      line = .data (BitVec.ofNat 8 (if p = 0 ∨ s.policy.read.getLsbD n = true then v / 256 else 0))) :=
  ⟨h.policed hr hp hlo hg (byte_mod v).symm, h.policed hr hp hhi hg rfl⟩

/-- An offset without a field. -/
theorem FirstByte.blank (h : FirstByte s p block off line) (hr : resolve s p block = some r)
    (hb : byteShown s p r off = 0) : line = .data (BitVec.ofNat 8 0) := by
  rw [h r hr, hb]
  rfl

end FirstByte

/-- The first byte of a read part of a mapped block is the one that the port's view shows at the pointer (R163, R164). -/
theorem readByteSent_first {s : State} {p : PortId} (h : (s.port p).phase = .reading) (hf : (s.port p).snapshot = none) :
    ∃ t, exec (.readByteSent p) s = .next t ∧
      FirstByte s p ((s.port p).pointer.toNat / 64) ((s.port p).pointer.toNat % 64) (t.port p).line := by
  refine ⟨_, readByteSent_eq h, fun r hr => ?_⟩
  rw [State.port_setPort_self, currentSnapshot_first hf]
  exact congrArg DataLine.data (capture_mapped hr (pointerOffset_lt _))

end Sys2Proof.Machine
end

section
/-! SUPPORT. The blocks of a view, read field by field (12.2 to 12.5). -/

namespace Sys2Proof.Machine

/-! ## The blocks of a view (R169 to R172) -/

/-- A lane number of a port's view stands for a cable lane (R21). -/
theorem viewLane_eq_some (s : State) (p : PortId) (x : Fin 8) (i : LaneId) : viewLane s p x = some i ↔
    (p = 0 ∧ s.inverse.get x = some i) ∨ ∃ k : LegId, p = legPort k ∧ (s.current.legs.get k).enabled = true ∧
      (s.wiring.legs.get k)[x.val]? = some i := by
  rcases port_cases p with rfl | ⟨k, rfl⟩
  · rw [viewLane_switch]
    refine ⟨fun h => .inl ⟨rfl, h⟩, ?_⟩
    rintro (⟨-, h⟩ | ⟨k, h, -⟩)
    · exact h
    · exact absurd h.symm (legPort_ne_zero k)
  · rw [viewLane_leg]
    constructor
    · intro h
      split at h
      · next he => exact .inr ⟨k, rfl, he, h⟩
      · cases h
    · rintro (⟨h, -⟩ | ⟨k', h, he, hl⟩)
      · exact absurd h (legPort_ne_zero k)
      · obtain rfl := legPort_inj h
        rw [if_pos he, hl]

theorem resolve_lane (s : State) (p : PortId) (x : Fin 8) :
    resolve s p (8 + x.val) = (viewLane s p x).map .lane := by fin_cases x <;> rfl

theorem resolve_tuning (s : State) (p : PortId) (x : Fin 8) :
    resolve s p (0x10 + x.val) = (viewLane s p x).map .tuning := by fin_cases x <;> rfl

theorem half_near (p : PortId) (l : Lane) : l.half (sideOf p .near) = if p = 0 then l.s else l.c := by
  show l.half (if p = 0 then .S else .C) = _
  split <;> rfl

theorem half_far (p : PortId) (l : Lane) : l.half (sideOf p .far) = if p = 0 then l.c else l.s := by
  show l.half (if p = 0 then .C else .S) = _
  split <;> rfl

/-! ## Fields -/

/-- Field groups in order, each over the given number of offsets. -/
def groupRuns (runs : List (Nat × FieldGroup)) : List FieldGroup := runs.flatMap fun x => List.replicate x.1 x.2

theorem actionRecord_groups (s : State) (p : PortId) : (record s p .action).map Prod.fst =
    groupRuns [(6, .request), (2, .empty), (1, .outcome), (7, .empty), (8, .outcome)] := by
  show (actionRecord s p).map Prod.fst = _
  simp only [actionRecord, List.map_append, inGroup_groups, blank_groups, List.length_map, Tab.length_eq]
  rfl

/-- Settles O30, block by block: each field is the byte of its record at its offset. -/
theorem recordsShowTheirFields : Obligations.RecordsShowTheirFields := by
  refine ⟨fun p s hphase hsnap => ?_, rfl, rfl, rfl, rfl, rfl, rfl, rfl, rfl, rfl, rfl⟩
  obtain ⟨t, ht, first⟩ := readByteSent_first hphase hsnap
  dsimp only
  refine ⟨t, ht, ?_⟩
  clear hphase hsnap ht
  generalize (s.port p).pointer.toNat / 64 = block at first ⊢
  generalize (s.port p).pointer.toNat % 64 = off at first ⊢
  refine ⟨?part, ?leg, ?lane, ?profile, ?policyGroups, ?policyActions, ?action, ?status, ?change⟩
  case part =>
    rintro rfl
    have hr : resolve s p 0 = some .part := rfl
    have field := first.plain hr
    have blank := first.blank hr
    simp only [record, partRecord, Tab.list_eq s.serial] at field
    have length : (record s p .part).length = 28 := by
      simpa using congrArg List.length (partRecord_groups s p)
    have low : ∀ {o}, o < shownPart → p = 0 ∨ Record.part ≠ .part ∨ o < shownPart := fun h => .inr (.inr h)
    refine ⟨field rfl rfl (low (by decide)) (byte_mod _).symm, field rfl rfl (low (by decide)) rfl,
      field rfl rfl (low (by decide)) (byte_mod _).symm, field rfl rfl (low (by decide)) rfl, fun n => ?_,
      field rfl rfl (low (by decide)) (byte_toNat _).symm, field rfl rfl (low (by decide)) rfl,
      field rfl rfl (low (by decide)) rfl, field rfl rfl (low (by decide)) rfl, fun h0 => ?_,
      fun h0 h => blank (byteShown_hiddenPart h0 h), fun h => blank (byteShown_beyond (by omega))⟩
    · fin_cases n <;> exact field rfl rfl (low (by decide)) (byte_toNat _).symm
    · exact ⟨field rfl rfl (.inl h0) rfl, field rfl rfl (.inl h0) rfl, field rfl rfl (.inl h0) rfl,
        field rfl rfl (.inl h0) rfl⟩
  case leg =>
    intro k hk
    have hr : resolve s p block = some (.leg k) := by
      rcases hk with ⟨rfl, rfl⟩ | ⟨rfl, rfl⟩
      · exact resolve_leg_switch s k
      · exact resolve_leg_own s k
    have field := first.policed hr nofun
    have blank := first.blank hr
    exact ⟨field rfl rfl rfl, field rfl rfl rfl, field rfl rfl rfl, field rfl rfl rfl,
      field rfl rfl rfl, field rfl rfl rfl, field rfl rfl rfl, field rfl rfl rfl,
      field rfl rfl rfl, field rfl rfl (congrArg byte (BusyMask.bits_eq _)),
      fun h => blank (byteShown_beyond h)⟩
  case lane =>
    rintro x i rfl hi
    have hr : resolve s p (8 + x.val) = some (.lane i) := by
      rw [resolve_lane, (viewLane_eq_some s p x i).mpr hi]
      rfl
    have field := first.policed hr nofun
    have two := first.policedTwo hr nofun
    have blank := first.blank hr
    have length : (record s p (.lane i)).length = 48 := rfl
    rw [← half_near p, ← half_far p]
    refine ⟨field rfl rfl rfl, field rfl rfl (congrArg byte (optByte_eq _)),
      field rfl rfl rfl, field rfl rfl (congrArg byte (optByte_eq _)),
      field rfl rfl (congrArg byte (RouteEntry.polarityBits_eq _)), field rfl rfl rfl,
      field rfl rfl (congrArg byte (HoldSet.bits_eq _)), field rfl rfl rfl,
      two rfl rfl rfl,
      two rfl rfl rfl,
      two rfl rfl rfl,
      two rfl rfl rfl,
      List.forall_mem_cons.mpr ⟨?_, List.forall_mem_singleton.mpr ?_⟩, fun h => blank (byteShown_beyond (by omega))⟩
    all_goals
      refine ⟨field rfl rfl rfl, field rfl rfl rfl, field rfl rfl rfl,
        field rfl rfl (congrArg byte (optByte_eq _)), field rfl rfl (congrArg byte (segmentBits_eq _ _)),
        field rfl rfl (congrArg byte (fomCode_eq _)), field rfl rfl (congrArg byte (fomCode_eq _)),
        field rfl rfl rfl, field rfl rfl rfl,
        two rfl rfl rfl,
        two rfl rfl rfl, fun h h' => blank ?_⟩
      dsimp only at h h'
      interval_cases off <;> exact byteShown_blank (.inr rfl)
  case profile =>
    rintro rfl rfl
    have hr : resolve s 0 0x20 = some .profile := rfl
    have field := first.plain hr
    have blank := first.blank hr
    have length : (record s 0 .profile).length = 26 := rfl
    refine ⟨fun k => ?_, fun x => ?_, field rfl rfl (.inl rfl) rfl, field rfl rfl (.inl rfl) rfl,
      fun h => blank (byteShown_beyond (by omega))⟩
    · fin_cases k <;> exact ⟨field rfl rfl (.inl rfl) rfl, field rfl rfl (.inl rfl) rfl,
        field rfl rfl (.inl rfl) rfl, field rfl rfl (.inl rfl) (congrArg byte (orderCode_eq _))⟩
    · fin_cases x <;> exact field rfl rfl (.inl rfl) (congrArg byte (pairBits_eq _))
  case policyGroups =>
    rintro rfl rfl
    have hr : resolve s 0 0x21 = some .policyGroups := rfl
    have field := first.plain hr
    have blank := first.blank hr
    have length : (record s 0 .policyGroups).length = 52 := rfl
    refine ⟨fun n => ?_, fun h h' => blank ?_, fun h => blank (byteShown_beyond (by omega))⟩
    · fin_cases n <;> exact ⟨field rfl rfl (.inl rfl) rfl, field rfl rfl (.inl rfl) rfl⟩
    · interval_cases off <;> exact byteShown_blank (.inr rfl)
  case policyActions =>
    rintro rfl rfl
    have hr : resolve s 0 0x22 = some .policyActions := rfl
    have field := first.plain hr
    have blank := first.blank hr
    have length : (record s 0 .policyActions).length = 17 := rfl
    refine ⟨fun n => ?_, field rfl rfl (.inl rfl) rfl, field rfl rfl (.inl rfl) rfl,
      field rfl rfl (.inl rfl) rfl, fun h => blank (byteShown_beyond (by omega))⟩
    fin_cases n <;> exact field rfl rfl (.inl rfl) rfl
  case action =>
    rintro rfl
    have hr : resolve s p 0x30 = some .action := rfl
    have field := first.policed hr nofun
    have blank := first.blank hr
    simp only [record, actionRecord, Tab.list_eq (Port.action _).perLane] at field
    have length : (record s p .action).length = 24 := by
      simpa [groupRuns] using congrArg List.length (actionRecord_groups s p)
    refine ⟨field rfl rfl (byte_toNat _).symm, field rfl rfl (congrArg byte (sideCode_eq _)),
      field rfl rfl (byte_toNat _).symm, field rfl rfl rfl,
      field rfl rfl (congrArg byte (directionCode_eq _)), field rfl rfl rfl,
      field rfl rfl rfl, fun n => ?_, fun h => blank ?_⟩
    · fin_cases n <;> exact field rfl rfl rfl
    · rcases h with rfl | rfl | ⟨h, h'⟩ | h
      · exact byteShown_blank (.inr rfl)
      · exact byteShown_blank (.inr rfl)
      · interval_cases off <;> exact byteShown_blank (.inr rfl)
      · exact byteShown_beyond (by omega)
  case status =>
    rintro rfl
    have hr : resolve s p 0x31 = some .status := rfl
    have field := first.policed hr nofun
    have two := first.policedTwo hr nofun
    have blank := first.blank hr
    rw [← discardedCode_eq]
    refine ⟨field rfl rfl rfl, two rfl rfl rfl, field rfl rfl rfl, field rfl rfl rfl, field rfl rfl rfl,
      fun h => blank ?_⟩
    rcases h with rfl | h
    · exact byteShown_blank (.inr rfl)
    · exact byteShown_beyond h
  case change =>
    rintro rfl
    have hr : resolve s p 0x32 = some .change := rfl
    have field := first.policed hr nofun
    have blank := first.blank hr
    simp only [record, changeRecord, flagBytes_eq] at field
    refine ⟨fun n => ?_, fun h => blank ?_⟩
    · fin_cases n <;> exact ⟨field rfl rfl rfl, field rfl rfl rfl⟩
    · rcases h with rfl | h
      · exact byteShown_blank (.inr rfl)
      · exact byteShown_beyond h

end Sys2Proof.Machine
end

section
/-! SUPPORT. The fields of a tuning record at their section bits (R78, R171, R191, R192). -/

namespace Sys2Proof.Machine

/-! ## Packed fields by their first bit -/

/-- Packed fields, each with its first bit (R191). -/
def placed : Nat → List (Nat × Nat) → List (Nat × Nat × Nat)
  | _, [] => []
  | lo, (w, v) :: rest => (lo, w, v) :: placed (lo + w) rest

theorem placed_append (lo : Nat) (a b : List (Nat × Nat)) :
    placed lo (a ++ b) = placed lo a ++ placed (lo + packWidth a) b := by
  induction a generalizing lo with
  | nil => rfl
  | cons f a ih =>
    obtain ⟨w, v⟩ := f
    rw [List.cons_append, placed, placed, ih, packWidth_cons, Nat.add_assoc]
    rfl

/-- A field stands among the fields that are packed before and after it. -/
theorem mem_placed {lo : Nat} {fields : List (Nat × Nat)} {f : Nat × Nat × Nat} (h : f ∈ placed lo fields) :
    ∃ before rest, fields = before ++ (f.2.1, f.2.2) :: rest ∧ f.1 = lo + packWidth before := by
  induction fields generalizing lo with
  | nil => cases h
  | cons x fields ih =>
    obtain ⟨w, v⟩ := x
    rcases List.mem_cons.mp h with rfl | h
    · exact ⟨[], fields, rfl, rfl⟩
    · obtain ⟨before, rest, e, hlo⟩ := ih h
      refine ⟨(w, v) :: before, rest, by rw [e, List.cons_append], ?_⟩
      rw [hlo, packWidth_cons, Nat.add_assoc]

theorem packBits_placed {fields : List (Nat × Nat)} {f : Nat × Nat × Nat} {m : Nat} (h : f ∈ placed 0 fields)
    (hm : m < f.2.1) : (packBits fields).testBit (f.1 + m) = f.2.2.testBit m := by
  obtain ⟨before, rest, e, hlo⟩ := mem_placed h
  rw [e, hlo, Nat.zero_add]
  exact packBits_testBit before rest hm

/-! ## The fields of one side (R78, R191) -/

theorem stackWord_width (st : List Setting) (n : Nat) : packWidth (stackWord st n) = 18 := by
  unfold stackWord
  split <;> rfl

theorem word_width (x : Setting) : packWidth x.word = 18 := rfl

/-- The setting word in the terms of R191. -/
theorem word_eq (x : Setting) : x.word = [(4, x.pre.natAbs),
    (5, (48 - x.pre.natAbs - x.post1.natAbs - x.post2.natAbs : Int).toNat - 24), (5, x.post1.natAbs),
    (4, (x.post2 % 16).toNat)] := by
  have main : (x.main - 24).toNat = (48 - x.pre.natAbs - x.post1.natAbs - x.post2.natAbs : Int).toNat - 24 := by
    unfold Setting.main Setting.outer
    omega
  unfold Setting.word
  rw [main]
  rfl

/-- The fields of one side with their values, an absent request, reply or tag being zero bits (R191). -/
theorem tuningFields_eq (h : Half) : h.tuningFields = (4, h.tx.stack.length) :: h.tx.current.word ++
    (stackWord h.tx.stack 0 ++ stackWord h.tx.stack 1 ++ stackWord h.tx.stack 2 ++ stackWord h.tx.stack 3) ++
    [(2, 0), (3, h.req.outstanding.elim 0 fun q => q.1.kindCode), (3, h.req.outstanding.elim 0 fun q => q.1.argument),
      (2, h.req.outstanding.elim 0 fun q => q.2.val), (2, h.req.nextTag.val),
      (2, h.req.lastReply.elim 0 fun q => q.1.val), (3, h.req.lastReply.elim 0 fun q => q.2.code),
      (2, h.resp.lastTag.elim 0 fun n => n.val), (3, h.resp.lastTag.elim 0 fun _ => h.resp.outcome.code),
      (1, flagCode h.seg.synchronised), (1, flagCode h.seg.ownReady), (1, flagCode h.seg.partnerReady)] ++
    h.seg.echo.fields ++
    [(2, 0), (2, originCode (h.scan.inFlight.map fun sc => sc.origin)), (2, originCode h.scan.last.origin),
      (5, edgeValue h.scan.last.edges 0), (5, edgeValue h.scan.last.edges 1), (5, edgeValue h.scan.last.edges 2),
      (5, edgeValue h.scan.last.edges 3), (5, edgeValue h.scan.last.edges 4), (5, edgeValue h.scan.last.edges 5),
      (6, height h.scan.last.edges 0), (6, height h.scan.last.edges 1), (6, height h.scan.last.edges 2),
      (8, fomCode h.scan.last.fom), (16, h.scan.count), (4, 0), (4, h.search.phase.code), (3, h.search.pass),
      (2, h.search.tap.code), (1, directionCode h.search.dir), (2, h.search.unordered), (1, flagCode h.search.tapMoved),
      (1, flagCode h.search.passMoved), (2, 0), (8, fomCode h.search.reference), (8, fomCode h.search.trialReading)] := by
  unfold Half.tuningFields
  rcases h.req.outstanding with _ | q <;> rcases h.req.lastReply with _ | a <;> rcases h.resp.lastTag with _ | n <;>
    simp only [List.append_assoc, List.cons_append, List.nil_append, Option.elim_none, Option.elim_some]

theorem placed_stackWord (lo : Nat) (st : List Setting) (n : Nat) :
    placed lo (stackWord st n) = (st[n]?).elim [(lo, 18, 0)] fun y => placed lo y.word := by
  unfold stackWord
  cases st[n]? <;> rfl

theorem directionCode_flag (d : Direction) : directionCode d = flagCode (decide (d = .plus)) := by cases d <;> rfl

/-! ## The bytes of a tuning record (R171, R191) -/

/-- The group of a byte of one side's section. -/
def tuningGroup (index : Nat) : FieldGroup :=
  if index < 12 then .setting else if index < 18 then .exchange else if index < 28 then .scan else .search

theorem tuningGroup_position (index : Nat) : (tuningGroup index).position =
    some (if index < 12 then 10 else if index < 18 then 11 else if index < 28 then 12 else 13) := by
  unfold tuningGroup
  split
  · rfl
  · split
    · rfl
    · split <;> rfl

theorem tuningSection_getElem? (h : Half) {n : Nat} (hn : n < 32) : (tuningSection h)[n]? =
    some (tuningGroup n, (bytesOf 32 (packBits h.tuningFields)).getD n 0) := by
  unfold tuningSection
  generalize packBits h.tuningFields = bits
  interval_cases n <;> rfl

/-- NEAR at 0x00 and FAR at 0x20, NEAR being S through M0 and C through a leg port. -/
theorem tuningRecord_getElem? (s : State) (p : PortId) (i : LaneId) {off : Nat} (ho : off < 64) :
    (record s p (.tuning i))[off]? =
      (tuningSection (if (off < 32) = (p = 0) then (s.lane i).s else (s.lane i).c))[off % 32]? := by
  have length : ∀ h, (tuningSection h).length = 32 := fun _ => rfl
  show (tuningSection ((s.lane i).half (sideOf p .near)) ++ tuningSection ((s.lane i).half (sideOf p .far)))[off]? = _
  rw [half_near, half_far]
  by_cases near : off < 32
  · rw [List.getElem?_append_left near, Nat.mod_eq_of_lt near]
    by_cases h0 : p = 0 <;> simp [near, h0]
  · rw [List.getElem?_append_right (by rw [length]; omega), length, show off % 32 = off - 32 by omega]
    by_cases h0 : p = 0 <;> simp [near, h0]

/-- Settles O31: the fields of R191 in order are those that the model packs, and a byte shows its eight bits of them. -/
theorem tuningRecordsPackTheirFields : Obligations.TuningRecordsPackTheirFields := by
  intro p s x i hphase hsnap hblock hview off h index group yes fom tapCode answer origin phase word asked edge fields
  obtain ⟨t, ht, first⟩ := readByteSent_first hphase hsnap
  have hr : resolve s p ((s.port p).pointer.toNat / 64) = some (.tuning i) := by
    rw [hblock, resolve_tuning, (viewLane_eq_some s p x i).mpr hview]
    rfl
  have hindex : index < 32 := Nat.mod_lt _ (by decide)
  have entry : (record s p (.tuning i))[off]? =
      some (tuningGroup index, (bytesOf 32 (packBits h.tuningFields)).getD index 0) :=
    (tuningRecord_getElem? s p i (Nat.mod_lt _ (by decide))).trans (tuningSection_getElem? h hindex)
  have shown := byteShown_of_getElem? entry (.inr (.inl nofun))
  have may : mayRead s p (tuningGroup index) = decide (p = 0 ∨ s.policy.read.getLsbD group = true) :=
    mayRead_policed s p (tuningGroup_position index)
  refine ⟨t, _, ht, first _ hr, fun h0 hno => ?_, fun hyes f hf m hm hplace => ?_⟩
  · refine shown.trans (if_neg ?_)
    show ¬ mayRead s p (tuningGroup index) = true
    rw [may]
    simp [h0, hno]
  · have raw : byteShown s p (.tuning i) off = (bytesOf 32 (packBits h.tuningFields)).getD index 0 :=
      shown.trans (if_pos (may.trans (decide_eq_true hyes)))
    have tabled : fields.Sublist (placed 0 h.tuningFields) := by
      have flags : yes = flagCode := rfl
      have foms : fom = fomCode := funext fun f => (fomCode_eq f).symm
      have taps : tapCode = Tap.code := funext fun y => by cases y <;> rfl
      have answers : answer = ReplyOutcome.code := funext fun o => by cases o <;> rfl
      have origins : origin = originCode := funext fun o => by rcases o with _ | (_ | _ | _) <;> rfl
      have phases : phase = Phase.code := funext fun o => by cases o <;> rfl
      have words : word = fun lo y => placed lo y.word := funext fun lo => funext fun y => by rw [word_eq]; rfl
      have edges : edge = edgeValue h.scan.last.edges := rfl
      have asks : asked = (h.req.outstanding.elim 0 fun q => q.1.kindCode,
          h.req.outstanding.elim 0 fun q => q.1.argument) := by
        simp only [asked]
        rcases h.req.outstanding with _ | ⟨⟨y, e⟩ | ⟨y, e⟩ | _ | _ | n, tag⟩
        · rfl
        · cases y <;> cases e <;> rfl
        · cases y <;> cases e <;> rfl
        all_goals rfl
      simp only [fields, flags, foms, taps, answers, origins, phases, words, edges, asks, tuningFields_eq, placed_append,
        placed, word_width, stackWord_width, placed_stackWord, directionCode_flag, height,
        Echo.fields, Nat.reduceAdd, Nat.reduceMul, List.flatMap_cons, List.flatMap_nil, List.append_assoc,
        List.cons_append, List.nil_append, List.cons_sublist_cons, List.append_sublist_append_left]
      -- the four gaps of the section stand between the fields
      refine .cons _ ?_
      simp only [List.cons_sublist_cons]
      refine .cons _ ?_
      simp only [List.cons_sublist_cons]
      refine .cons _ ?_
      simp only [List.cons_sublist_cons]
      exact .cons _ (.refl _)
    show (byteShown s p (.tuning i) off).getLsbD _ = _
    rw [raw, ← hplace, bytesOf_getLsbD 32 _ _ (by omega)]
    exact packBits_placed (tabled.subset hf) hm

end Sys2Proof.Machine
end

section
/-! SUPPORT. Writes that store nothing: those of an unmapped block, of a read-only group and of offsets without a field (R167,
R169, R170, R172, R175, R177, R178, R180). -/

namespace Sys2Proof.Machine

/-! ## Mapped blocks (R21, R169 to R172) -/

theorem viewLane_ne_none (s : State) (p : PortId) (x : Fin 8) : viewLane s p x ≠ none ↔
    (p = 0 ∧ s.inverse.get x ≠ none) ∨ ∃ k : LegId, p = legPort k ∧ (s.current.legs.get k).enabled = true ∧
      x.val < s.wiring.laneCount k := by
  simp only [Option.ne_none_iff_exists', viewLane_eq_some, Wiring.laneCount]
  constructor
  · rintro ⟨i, ⟨h0, hi⟩ | ⟨k, hk, he, hl⟩⟩
    · exact .inl ⟨h0, i, hi⟩
    · exact .inr ⟨k, hk, he, (List.getElem?_eq_some_iff.mp hl).1⟩
  · rintro (⟨h0, i, hi⟩ | ⟨k, hk, he, hl⟩)
    · exact ⟨i, .inl ⟨h0, hi⟩⟩
    · exact ⟨_, .inr ⟨k, hk, he, List.getElem?_eq_getElem hl⟩⟩

/-- The lane number behind block `block` of a table of eight records that starts at block `first` shows a cable lane. -/
def laneShown (s : State) (p : PortId) (block first : Nat) : Prop :=
  ∃ x : Fin 8, block = first + x.val ∧ viewLane s p x ≠ none

/-- The blocks that a port's view maps. -/
def blockMapped (s : State) (p : PortId) (block : Nat) : Prop :=
  block = 0 ∨ block = 0x30 ∨ block = 0x31 ∨ block = 0x32 ∨ block = 1 ∨
    (p = 0 ∧ (block = 2 ∨ block = 3 ∨ block = 4 ∨ block = 0x20 ∨ block = 0x21 ∨ block = 0x22)) ∨
    laneShown s p block 8 ∨ laneShown s p block 0x10

theorem laneShown_self (s : State) (p : PortId) (first : Nat) (x : Fin 8) :
    laneShown s p (first + x.val) first ↔ viewLane s p x ≠ none := by
  refine ⟨?_, fun h => ⟨x, rfl, h⟩⟩
  rintro ⟨y, hy, h⟩
  obtain rfl : x = y := Fin.ext (by omega)
  exact h

theorem not_laneShown {s : State} {p : PortId} {block first : Nat} (h : block < first ∨ first + 8 ≤ block) :
    ¬ laneShown s p block first := by
  rintro ⟨x, rfl, -⟩
  omega

theorem portLeg_eq_none {p : PortId} : portLeg p = none ↔ p = 0 := by
  revert p
  decide

/-- The blocks that are no lane or tuning record. -/
theorem resolve_fixed {s : State} {p : PortId} {block : Nat} (lane : ¬ (8 ≤ block ∧ block < 16))
    (tuning : ¬ (16 ≤ block ∧ block < 24)) : resolve s p block ≠ none ↔
      block = 0 ∨ block = 0x30 ∨ block = 0x31 ∨ block = 0x32 ∨ block = 1 ∨
        (p = 0 ∧ (block = 2 ∨ block = 3 ∨ block = 4 ∨ block = 0x20 ∨ block = 0x21 ∨ block = 0x22)) := by
  constructor
  · refine fun h => by_contra fun no => h ?_
    simp only [not_or, not_and] at no
    obtain ⟨h0, h30, h31, h32, h1, rest⟩ := no
    unfold resolve
    rw [if_neg h0, if_neg lane, if_neg tuning, if_neg h30, if_neg h31, if_neg h32]
    split
    · next e =>
      obtain ⟨h2, h3, h4, h20, h21, h22⟩ := rest (portLeg_eq_none.mp e)
      rw [if_neg h1, if_neg h2, if_neg h3, if_neg h4, if_neg h20, if_neg h21, if_neg h22]
    · rw [if_neg h1]
  · rcases port_cases p with rfl | ⟨k, rfl⟩
    · rintro (rfl | rfl | rfl | rfl | rfl | ⟨-, rfl | rfl | rfl | rfl | rfl | rfl⟩) <;> exact Option.some_ne_none _
    · rintro (rfl | rfl | rfl | rfl | rfl | ⟨h, -⟩)
      · exact Option.some_ne_none _
      · exact Option.some_ne_none _
      · exact Option.some_ne_none _
      · exact Option.some_ne_none _
      · rw [resolve_leg_own]
        exact Option.some_ne_none _
      · exact absurd h (legPort_ne_zero k)

theorem resolve_ne_none (s : State) (p : PortId) (block : Nat) : resolve s p block ≠ none ↔ blockMapped s p block := by
  unfold blockMapped
  by_cases lane : 8 ≤ block ∧ block < 16
  · obtain ⟨x, rfl⟩ : ∃ x : Fin 8, block = 8 + x.val := ⟨⟨block - 8, by omega⟩, by simp; omega⟩
    have other : ¬ laneShown s p (8 + x.val) 0x10 := not_laneShown (.inl (by omega))
    rw [resolve_lane, laneShown_self, Ne, Option.map_eq_none_iff]
    refine ⟨fun h => .inr (.inr (.inr (.inr (.inr (.inr (.inl h)))))), ?_⟩
    rintro (h | h | h | h | h | ⟨-, h⟩ | h | h)
    all_goals first | exact h | exact absurd h other | omega
  · by_cases tuning : 16 ≤ block ∧ block < 24
    · obtain ⟨x, rfl⟩ : ∃ x : Fin 8, block = 0x10 + x.val := ⟨⟨block - 16, by omega⟩, by simp; omega⟩
      have other : ¬ laneShown s p (0x10 + x.val) 8 := not_laneShown (.inr (by omega))
      rw [resolve_tuning, laneShown_self, Ne, Option.map_eq_none_iff]
      refine ⟨fun h => .inr (.inr (.inr (.inr (.inr (.inr (.inr h)))))), ?_⟩
      rintro (h | h | h | h | h | ⟨-, h⟩ | h | h)
      all_goals first | exact h | exact absurd h other | omega
    · have noLane : ¬ laneShown s p block 8 := not_laneShown (by omega)
      have noTuning : ¬ laneShown s p block 0x10 := not_laneShown (by omega)
      rw [resolve_fixed lane tuning]
      simp only [noLane, noTuning, or_false]

theorem resolve_laneShown {s : State} {p : PortId} {block : Nat} :
    (laneShown s p block 8 → ∃ i, resolve s p block = some (.lane i)) ∧
      (laneShown s p block 0x10 → ∃ i, resolve s p block = some (.tuning i)) := by
  constructor <;> rintro ⟨x, rfl, hx⟩ <;> obtain ⟨i, hi⟩ := Option.ne_none_iff_exists'.mp hx
  · exact ⟨i, by rw [resolve_lane, hi]; rfl⟩
  · exact ⟨i, by rw [resolve_tuning, hi]; rfl⟩

/-- The blocks of leg records (R169, R170). -/
theorem resolve_legBlock {s : State} {p : PortId} {block : Nat} (h : block = 1 ∨ (p = 0 ∧ 2 ≤ block ∧ block ≤ 4)) :
    ∃ k, resolve s p block = some (.leg k) := by
  rcases port_cases p with rfl | ⟨k, rfl⟩
  · obtain ⟨k, rfl⟩ : ∃ k : LegId, block = 1 + k.val := ⟨⟨block - 1, by omega⟩, by simp; omega⟩
    exact ⟨k, resolve_leg_switch s k⟩
  · rcases h with rfl | ⟨h, -⟩
    · exact ⟨k, resolve_leg_own s k⟩
    · exact absurd h (legPort_ne_zero k)

/-! ## The answer to a read-only group (R175, R177, R178) -/

theorem judgeWrite_fixed {s : State} {p : PortId} {r : Record} {g : FieldGroup} (h : fixedRefuses p r g = true) :
    judgeWrite s p r g = if classBusy s p r = true then .busy else .refused := by
  unfold judgeWrite
  rw [h]
  rfl

theorem fixedRefuses_readOnly (p : PortId) (r : Record) {g : FieldGroup} (h : g.readOnly = true) :
    fixedRefuses p r g = true := by
  unfold fixedRefuses
  rw [h]
  rfl

theorem fixedRefuses_part {p : PortId} (h : p ≠ 0) (g : FieldGroup) : fixedRefuses p .part g = true := by
  simp [fixedRefuses, h]

theorem fixedRefuses_busy {p : PortId} (h : p ≠ 0) (r : Record) : fixedRefuses p r .busy = true := by
  simp [fixedRefuses, h]

/-- The class that `flag` stands for is closed to the port: by the port's own leg, if it has one (R178). -/
theorem closed_eq (s : State) (p : PortId) (flag : BusyMask → Bool)
    [Decidable (∃ k : LegId, p = legPort k ∧ flag (s.busy.get k) = true)] :
    decide (∃ k : LegId, p = legPort k ∧ flag (s.busy.get k) = true) =
      (portLeg p).elim false fun k => flag (s.busy.get k) := by
  rw [Bool.eq_iff_iff, decide_eq_true_iff]
  rcases port_cases p with rfl | ⟨k, rfl⟩
  · refine ⟨?_, nofun⟩
    rintro ⟨k, h, -⟩
    exact absurd h.symm (legPort_ne_zero k)
  · rw [portLeg_legPort]
    refine ⟨?_, fun h => ⟨k, rfl, h⟩⟩
    rintro ⟨k', h, hf⟩
    obtain rfl := legPort_inj h
    exact hf

/-- The class of a record is closed by one flag of the busy mask of the port's leg (R178). -/
theorem classBusy_eq (s : State) (p : PortId) :
    (∀ m, classBusy s p (.leg m) = (portLeg p).elim false fun k => (s.busy.get k).leg) ∧
    (∀ i, classBusy s p (.lane i) = (portLeg p).elim false fun k => (s.busy.get k).lane) ∧
    (∀ i, classBusy s p (.tuning i) = (portLeg p).elim false fun k => (s.busy.get k).tune) := by
  unfold classBusy
  cases portLeg p <;> exact ⟨fun _ => rfl, fun _ => rfl, fun _ => rfl⟩

/-- The records of no class are never busy. -/
theorem classBusy_free (s : State) (p : PortId) {r : Record} (hg : ∀ k, r ≠ .leg k) (hl : ∀ i, r ≠ .lane i)
    (ht : ∀ i, r ≠ .tuning i) : classBusy s p r = false := by
  unfold classBusy
  split
  · rfl
  · cases r with
    | leg k => exact absurd rfl (hg k)
    | lane i => exact absurd rfl (hl i)
    | tuning i => exact absurd rfl (ht i)
    | _ => rfl

/-! ## The groups of a record -/

theorem groupAt_eq {s : State} {p : PortId} {r : Record} {gs : List FieldGroup} (h : (record s p r).map Prod.fst = gs)
    (off : Nat) : groupAt s p r off = gs.getD off .empty := by
  unfold groupAt
  rw [← h, List.getD_eq_getElem?_getD, List.getElem?_map]
  cases (record s p r)[off]? <;> rfl

theorem laneRecord_groups (s : State) (p : PortId) (i : LaneId) : (record s p (.lane i)).map Prod.fst =
    groupRuns [(5, .route), (3, .lane), (8, .counters), (6, .segment), (3, .watch), (4, .counters), (3, .empty),
      (6, .segment), (3, .watch), (4, .counters), (3, .empty)] := rfl

theorem tuningRecord_groups (s : State) (p : PortId) (i : LaneId) : (record s p (.tuning i)).map Prod.fst =
    groupRuns [(12, .setting), (6, .exchange), (10, .scan), (4, .search), (12, .setting), (6, .exchange), (10, .scan),
      (4, .search)] := rfl

theorem statusRecord_groups (s : State) (p : PortId) : (record s p .status).map Prod.fst =
    [.status, .status, .status, .empty, .counts, .counts, .counts] := rfl

theorem changeRecord_groups (s : State) (p : PortId) : (record s p .change).map Prod.fst =
    [.bitmap, .bitmap, .bitmap, .empty, .mask, .mask, .mask] := rfl

/-! ## The write stop (R167, R180) -/

/-- The written groups of a buffer whose bytes lie in one group. -/
theorem writtenGroups_single {s : State} {p : PortId} {r : Record} {g : FieldGroup} {buf : HoldingBuffer}
    {e : Nat × Byte} {rest : List (Nat × Byte)} (he : buf.entries = e :: rest)
    (hg : ∀ x ∈ buf.entries, groupAt s p r x.1 = g) : writtenGroups s p r buf = [g] := by
  have same : buf.entries.map (fun x => groupAt s p r x.1) = List.replicate (rest.length + 1) g :=
    List.eq_replicate_iff.mpr ⟨by simp [he], fun y hy => by
      obtain ⟨x, hx, rfl⟩ := List.mem_map.mp hy
      exact hg x hx⟩
  unfold writtenGroups
  rw [same, List.replicate_succ, List.eraseDups_cons]
  simp

/-- The end of a write part of which nothing is stored: the port's status alone records it. -/
theorem endWritePart_discarded {s : State} {p : PortId} {later : BitVec 8} {block : Nat} {mid : State}
    {f : PortStatus → PortStatus} (hout : (s.port p).handed = []) (hb : (s.port p).buffer.block = some block)
    (he : writeEffect s p block (s.port p).buffer later = (mid, s.setStatus p f)) :
    (endWritePart s p later).quiet = s.writeEnded p (f (s.port p).status) := by
  have stop : (writeStop s p block (s.port p).buffer later).quiet = (s.setStatus p f).quiet := by
    rw [writeStop_quiet hout, he]
  unfold endWritePart State.writeEnded
  dsimp only
  rw [hb, ← setPort_setPort s p { s.port p with status := f (s.port p).status }]
  dsimp only
  refine quiet_setPort_congr stop ?_
  rw [port_of_quiet stop p, State.setStatus, State.port_setPort_self]
  rfl

/-- The status after a write of which nothing is stored: one item refused or busy (R180). -/
def PortStatus.denied (st : PortStatus) (busy : Bool) : PortStatus :=
  if busy = true then
    { st with last := .busy, busy := min 255 (st.busy + 1), refused := min 255 st.refused }
  else { st with last := .refused, refused := min 255 (st.refused + 1), busy := min 255 st.busy }

/-- A write part under way at port `p` with no operation out, its first byte at offset `off`. -/
structure WritePart (s : State) (p : PortId) (block off : Nat) (b : Byte) (rest : List (Nat × Byte)) : Prop where
  writing : (s.port p).phase = .writing
  settled : (s.port p).handed = []
  buffer : (s.port p).buffer = ⟨some block, (off, b) :: rest⟩

section WritePart
variable {s : State} {p : PortId} {block off : Nat} {b : Byte} {rest : List (Nat × Byte)} {r : Record} {g : FieldGroup}

/-- The write of an unmapped block (R172, R180). -/
theorem WritePart.unmapped (h : WritePart s p block off b rest) (later : BitVec 8) (hr : resolve s p block = none) :
    (endWritePart s p later).quiet = s.writeEnded p ((s.port p).status.afterUnmapped block off) := by
  refine endWritePart_discarded (mid := s) (f := fun st => st.afterUnmapped block off) h.settled (by rw [h.buffer]) ?_
  unfold writeEffect
  rw [hr, h.buffer]

/-- A write of one group that is refused or busy. -/
theorem WritePart.denied (h : WritePart s p block off b rest) (later : BitVec 8) {busy : Bool}
    (hr : resolve s p block = some r) (hg : ∀ e ∈ (off, b) :: rest, groupAt s p r e.1 = g) (hq : g ≠ .request)
    (ha : judgeWrite s p r g = if busy = true then .busy else .refused) : (endWritePart s p later).quiet =
      s.writeEnded p { (s.port p).status.denied busy with discarded := some (block * 64 + off) } := by
  generalize hbuf : (⟨some block, (off, b) :: rest⟩ : HoldingBuffer) = buf
  have entries : buf.entries = (off, b) :: rest := by rw [← hbuf]
  rw [← entries] at hg
  have groups : writtenGroups s p r buf = [g] := writtenGroups_single entries hg
  have answer : groupAnswer s p r buf g = if busy = true then .busy else .refused := by
    unfold groupAnswer
    rw [ha]
    cases busy <;> rfl
  have notAllowed : groupAnswer s p r buf g ≠ .allow := by
    rw [answer]
    cases busy <;> nofun
  have stored : storeGroups s p r buf = s := by
    unfold storeGroups
    rw [groups]
    simp [notAllowed]
  have noCode : writesCode s p r buf = false := by
    by_cases act : r = .action
    · subst act
      have noByte : buf.byteAt 0 = none := by
        refine Option.eq_none_iff_forall_ne_some.mpr fun x hx => hq ?_
        obtain ⟨l₁, l₂, e, -⟩ := List.lookup_eq_some_iff.mp hx
        rw [← hg (0, x) (by rw [e]; simp)]
        exact groupAt_request s p (show 0 < 6 by decide)
      unfold writesCode
      rw [noByte]
      rfl
    · unfold writesCode
      rw [decide_eq_false act]
      rfl
  have tally : tallyGroups s p r buf = if busy = true then ⟨0, 0, 1, some off⟩ else ⟨0, 1, 0, some off⟩ := by
    have first : buf.entries.find? (fun e => decide (groupAnswer s p r buf (groupAt s p r e.1) ≠ .allow)) =
        some (off, b) := by
      have here := hg (off, b) (entries ▸ .head _)
      rw [entries, List.find?_cons_of_pos (by rw [here]; exact decide_eq_true notAllowed)]
    unfold tallyGroups
    rw [first, groups]
    cases busy <;> simp [answer]
  have effect : writeEffect s p block buf later = (s, s.setStatus p fun st =>
      st.afterWrite block (if busy = true then ⟨0, 0, 1, some off⟩ else ⟨0, 1, 0, some off⟩)) := by
    unfold writeEffect
    rw [hr]
    dsimp only
    rw [noCode, stored, tally]
    rfl
  rw [← h.buffer] at hbuf
  rw [endWritePart_discarded h.settled (by rw [h.buffer]) (hbuf ▸ effect)]
  cases busy <;> rfl

end WritePart

/-- Settles O32: the bytes lie in one group, whose fixed entry refuses it, unless the port's busy mask closes its class. -/
theorem writesWithoutAFieldAreDiscarded : Obligations.WritesWithoutAFieldAreDiscarded := by
  intro p later s block off b rest st laneThere mapped closed hw hout hbuf
  have part : WritePart s p block off b rest := ⟨hw, hout, hbuf⟩
  have shown : ∀ first, laneThere first ↔ laneShown s p block first := fun first => by
    simp only [laneThere, laneShown, viewLane_ne_none]
  have blocks : mapped ↔ blockMapped s p block := by
    simp only [mapped, shown, blockMapped]
  have unmapped : resolve s p block = none ↔ ¬ mapped := by
    rw [blocks, ← resolve_ne_none, not_not]
  obtain ⟨legClass, laneClass, tuneClass⟩ := classBusy_eq s p
  refine ⟨_, registerWrite_eq later hw, ?_⟩
  intro ended denied
  have deny : ∀ {r gs busy}, resolve s p block = some r → (record s p r).map Prod.fst = gs → classBusy s p r = busy →
      ∀ g, fixedRefuses p r g = true → g ≠ .request →
      ∀ group, (∀ z ∈ group, ∀ o < z.2, z.1 ≤ o → gs.getD o .empty = g) → denied busy group := by
    rintro r gs busy hr hgs rfl g hf hq group hgroup hin
    refine part.denied later hr (fun e he => ?_) hq (judgeWrite_fixed hf)
    obtain ⟨z, hz, hlo, hhi⟩ := hin e he
    rw [groupAt_eq hgs]
    exact hgroup z hz e.1 hhi hlo
  have readOnly : ∀ {r gs busy}, resolve s p block = some r → (record s p r).map Prod.fst = gs → classBusy s p r = busy →
      ∀ g, g.readOnly = true →
      ∀ group, (∀ z ∈ group, ∀ o < z.2, z.1 ≤ o → gs.getD o .empty = g) → denied busy group :=
    fun hr hgs hc g hro => deny hr hgs hc g (fixedRefuses_readOnly p _ hro) fun e => by rw [e] at hro; cases hro
  refine ⟨unmapped, fun h => part.unmapped later (unmapped.mpr h), ?action, ?status, ?change, ?part, ?leg, ?profile,
    ?policyGroups, ?policyActions, ?lane, ?tuning⟩
  case action =>
    rintro rfl
    have readOnly := readOnly (resolve_action s p) (actionRecord_groups s p) (classBusy_free s p nofun nofun nofun)
    exact ⟨readOnly .outcome rfl _ (by decide), readOnly .empty rfl _ (by decide)⟩
  case status =>
    rintro rfl
    have readOnly := readOnly (resolve_status s p) (statusRecord_groups s p) (classBusy_free s p nofun nofun nofun)
    exact ⟨readOnly .status rfl _ (by decide), readOnly .empty rfl _ (by decide)⟩
  case change =>
    rintro rfl
    have readOnly := readOnly (resolve_change s p) (changeRecord_groups s p) (classBusy_free s p nofun nofun nofun)
    exact readOnly .empty rfl _ (by decide)
  case part =>
    rintro rfl
    have free := classBusy_free s p (r := .part) nofun nofun nofun
    have readOnly := readOnly rfl (partRecord_groups s p) free
    refine ⟨readOnly .ident rfl _ (by decide), readOnly .pstate rfl _ (by decide), readOnly .empty rfl _ (by decide),
      fun h0 => ?_⟩
    have deny := fun g => deny rfl (partRecord_groups s p) free g (fixedRefuses_part h0 g)
    exact ⟨deny .hysteresis nofun _ (by decide), deny .watchParams nofun _ (by decide)⟩
  case leg =>
    intro h
    obtain ⟨k, hr⟩ := resolve_legBlock h
    have busy : classBusy s p (.leg k) = closed (·.leg) := (legClass k).trans (closed_eq s p (·.leg)).symm
    have readOnly := readOnly hr (legRecord_groups s p k) busy
    exact ⟨readOnly .legState rfl _ (by decide), readOnly .empty rfl _ (by decide),
      fun h0 => deny hr (legRecord_groups s p k) busy .busy (fixedRefuses_busy h0 _) nofun _ (by decide)⟩
  case profile =>
    rintro rfl rfl
    have readOnly := readOnly (r := .profile) rfl (profileRecord_groups s 0) rfl
    exact ⟨readOnly .applyOutcome rfl _ (by decide), readOnly .empty rfl _ (by decide)⟩
  case policyGroups =>
    rintro rfl rfl
    exact readOnly (r := .policyGroups) rfl (policyGroupsRecord_groups s 0) rfl .empty rfl _ (by decide)
  case policyActions =>
    rintro rfl rfl
    exact readOnly (r := .policyActions) rfl (policyActionsRecord_groups s 0) rfl .empty rfl _ (by decide)
  case lane =>
    intro h
    obtain ⟨i, hr⟩ := resolve_laneShown.1 ((shown 8).mp h)
    have readOnly := readOnly hr (laneRecord_groups s p i) ((laneClass i).trans (closed_eq s p (·.lane)).symm)
    simp only [List.forall_mem_cons, List.not_mem_nil, false_imp_iff, implies_true, and_true]
    exact ⟨readOnly .route rfl _ (by decide), readOnly .lane rfl _ (by decide), readOnly .segment rfl _ (by decide),
      readOnly .watch rfl _ (by decide), readOnly .counters rfl _ (by decide), readOnly .empty rfl _ (by decide)⟩
  case tuning =>
    intro h
    obtain ⟨i, hr⟩ := resolve_laneShown.2 ((shown 0x10).mp h)
    have readOnly := readOnly hr (tuningRecord_groups s p i) ((tuneClass i).trans (closed_eq s p (·.tune)).symm)
    simp only [List.forall_mem_cons, List.not_mem_nil, false_imp_iff, implies_true, and_true]
    exact ⟨readOnly .setting rfl _ (by decide), readOnly .exchange rfl _ (by decide), readOnly .scan rfl _ (by decide),
      readOnly .search rfl _ (by decide)⟩

end Sys2Proof.Machine
end

section
/-! SUPPORT. The write stop of COUNTS_ZERO: one group of the port status block, zeroed or refused whole (R167, R177,
R180, R181). -/

namespace Sys2Proof.Machine

/-! ## A write stop of one group without an action (R167, R180) -/

section Single
variable {s : State} {p : PortId} {block : Nat} {r : Record} {g : FieldGroup} {buf : HoldingBuffer} {e : Nat × Byte}
  {rest : List (Nat × Byte)}

/-- What a write stop leaves that takes no action: its allowed groups and its items (R167, R180). -/
theorem writeEffect_noAction (hm : resolve s p block = some r) (hr : r ≠ .action) (later : BitVec 8) :
    (writeEffect s p block buf later).2 =
      (storeGroups s p r buf).setStatus p fun st => st.afterWrite block (tallyGroups s p r buf) := by
  have noCode : writesCode s p r buf = false := by
    unfold writesCode
    rw [decide_eq_false hr]
    rfl
  unfold writeEffect
  rw [hm]
  dsimp only
  rw [noCode]
  rfl

/-- The group is allowed: it is stored and counts as taken. -/
theorem writeEffect_allowed (hm : resolve s p block = some r) (hr : r ≠ .action) (he : buf.entries = e :: rest)
    (hg : ∀ x ∈ buf.entries, groupAt s p r x.1 = g) (ha : groupAnswer s p r buf g = .allow) (later : BitVec 8) :
    (writeEffect s p block buf later).2 =
      (storeGroup p r buf s g).setStatus p fun st => st.afterWrite block ⟨1, 0, 0, none⟩ := by
  have groups : writtenGroups s p r buf = [g] := writtenGroups_single he hg
  have allTaken : buf.entries.find? (fun x => decide (groupAnswer s p r buf (groupAt s p r x.1) ≠ .allow)) = none :=
    List.find?_eq_none.mpr fun x hx => by simp [hg x hx, ha]
  rw [writeEffect_noAction hm hr]
  simp only [storeGroups, tallyGroups, allTaken, groups]
  simp [ha]

/-- The group is refused: nothing is stored, and the lowest byte's offset is the one discarded. -/
theorem writeEffect_refused (hm : resolve s p block = some r) (hr : r ≠ .action) (he : buf.entries = e :: rest)
    (hg : ∀ x ∈ buf.entries, groupAt s p r x.1 = g) (ha : groupAnswer s p r buf g = .refused) (later : BitVec 8) :
    (writeEffect s p block buf later).2 = s.setStatus p fun st => st.afterWrite block ⟨0, 1, 0, some e.1⟩ := by
  have groups : writtenGroups s p r buf = [g] := writtenGroups_single he hg
  have first : buf.entries.find? (fun x => decide (groupAnswer s p r buf (groupAt s p r x.1) ≠ .allow)) = some e := by
    have here := hg e (he ▸ .head _)
    rw [he, List.find?_cons_of_pos (by rw [here, ha]; rfl)]
  rw [writeEffect_noAction hm hr]
  simp only [storeGroups, tallyGroups, first, groups]
  simp [ha]

/-- A write stop of its own at a port that acknowledges and has no operation out. -/
theorem hostWrite_quiet (hack : acknowledges s p = true) (hout : (s.port p).handed = []) {entries : List (Nat × Byte)}
    (hne : entries ≠ []) (later : BitVec 8) : (hostWrite s p block entries later).quiet =
      (writeEffect s p block ⟨some block, entries⟩ later).2.quiet := by
  unfold hostWrite
  rw [if_pos ⟨hack, hne⟩, writeStop_quiet hout]

end Single

/-! ## The COUNTS group (R177, R181) -/

/-- Only a leg host is refused the counts by the policy, by its own write entry (R175, R177). -/
theorem judgeWrite_counts {s : State} {p : PortId} (h : p = 0 ∨ s.policy.write.getLsbD 17 = true) :
    judgeWrite s p .status .counts = .allow := by
  have writable : fixedRefuses p .status .counts = false := by simp [fixedRefuses, FieldGroup.readOnly]
  have allowed : mayWrite s p .counts = true := by
    unfold mayWrite
    split
    · rfl
    · next h0 => exact h.resolve_left h0
  unfold judgeWrite
  rw [classBusy_free s p (r := .status) nofun nofun nofun, writable, allowed]
  rfl

theorem badCount_eq_false {x : Option Byte} : badCount x = false ↔ x = none ∨ x = some 0 := by
  cases x with
  | none => simp [badCount]
  | some v => simp [badCount, BitVec.toNat_eq]

/-- The bytes of a COUNTS_ZERO, at the offsets of the three counts (12.5). -/
def countsBuffer (a b c : Option Byte) : HoldingBuffer := ⟨some 0x31, optionalEntries 4 [a, b, c]⟩

/-- The lowest offset marked. -/
def lowestCount (a b : Option Byte) : Nat := if a ≠ none then 4 else if b ≠ none then 5 else 6

section Counts
variable (s : State) (p : PortId) (a b c : Option Byte)

theorem countsBuffer_byteAt : (countsBuffer a b c).byteAt 4 = a ∧ (countsBuffer a b c).byteAt 5 = b ∧
    (countsBuffer a b c).byteAt 6 = c := by
  cases a <;> cases b <;> cases c <;> exact ⟨rfl, rfl, rfl⟩

theorem countsBuffer_entries (h : ¬ (a = none ∧ b = none ∧ c = none)) :
    ∃ x rest, (countsBuffer a b c).entries = (lowestCount a b, x) :: rest := by
  cases a with
  | some x => exact ⟨x, _, rfl⟩
  | none =>
    cases b with
    | some x => exact ⟨x, _, rfl⟩
    | none =>
      cases c with
      | some x => exact ⟨x, _, rfl⟩
      | none => exact absurd ⟨rfl, rfl, rfl⟩ h

theorem optionalEntries_range (base : Nat) (xs : List (Option Byte)) {e : Nat × Byte}
    (he : e ∈ optionalEntries base xs) : base ≤ e.1 ∧ e.1 < base + xs.length := by
  induction xs generalizing base with
  | nil => cases he
  | cons x xs ih =>
    rw [List.length_cons]
    cases x with
    | none =>
      have := ih (base + 1) he
      omega
    | some v =>
      rcases List.mem_cons.mp he with rfl | tail
      · exact ⟨le_rfl, by simp⟩
      · have := ih (base + 1) tail
        omega

theorem countsBuffer_group : ∀ e ∈ (countsBuffer a b c).entries, groupAt s p .status e.1 = .counts := by
  intro e he
  obtain ⟨lo, hi⟩ := optionalEntries_range 4 [a, b, c] he
  have all : ∀ o < 7, 4 ≤ o →
      [FieldGroup.status, .status, .status, .empty, .counts, .counts, .counts][o]? = some .counts := by decide
  exact groupAt_of_groups (statusRecord_groups s p) (all e.1 hi lo)

/-- The owner of the counts refuses a marked byte other than 0 (R181). -/
theorem ownerRefuses_counts : ownerRefuses .counts (countsBuffer a b c) = false ↔
    (a = none ∨ a = some 0) ∧ (b = none ∨ b = some 0) ∧ (c = none ∨ c = some 0) := by
  obtain ⟨ha, hb, hc⟩ := countsBuffer_byteAt a b c
  simp only [ownerRefuses, ha, hb, hc, Bool.or_eq_false_iff, badCount_eq_false, and_assoc]

/-- The counts after a write of them: a marked count is 0 (R181). -/
def PortStatus.zeroed (st : PortStatus) : PortStatus :=
  { st with
    refused := if a = none then st.refused else 0
    busy := if b = none then st.busy else 0
    unmapped := if c = none then st.unmapped else 0 }

theorem storeGroup_counts : storeGroup p .status (countsBuffer a b c) s .counts =
    s.setStatus p (PortStatus.zeroed a b c) := by
  have zero : ∀ (old : Nat) (x : Option Byte), written old (fun _ => 0) x = if x = none then old else 0 := by
    intro old x
    cases x <;> rfl
  obtain ⟨ha, hb, hc⟩ := countsBuffer_byteAt a b c
  simp only [storeGroup, ha, hb, hc, zero]
  rfl

end Counts

theorem setStatus_setStatus (s : State) (p : PortId) (f g : PortStatus → PortStatus) :
    (s.setStatus p f).setStatus p g = s.setStatus p fun st => g (f st) := by
  simp only [State.setStatus, State.port_setPort_self, setPort_setPort]

/-- Settles O35: the port may write its counts, so that their owner alone allows or refuses the group. -/
theorem countsAreZeroedOrRefusedWhole : Obligations.CountsAreZeroedOrRefusedWhole := by
  intro p a b c s hack hout hw hne
  refine ⟨_, rfl, ?_⟩
  intro st zeros lowest
  obtain ⟨x, rest, entries⟩ := countsBuffer_entries a b c hne
  have marked : (countsBuffer a b c).entries ≠ [] := by
    rw [entries]
    nofun
  have group := countsBuffer_group s p a b c
  have answer : groupAnswer s p .status (countsBuffer a b c) .counts = _ := groupAnswer_of_allow (judgeWrite_counts hw)
  refine (hostWrite_quiet hack hout marked 0).trans ?_
  by_cases hz : zeros
  · have allowed := answer.trans (if_neg (Bool.eq_false_iff.mp ((ownerRefuses_counts a b c).mpr hz)))
    have effect := writeEffect_allowed (resolve_status s p) nofun entries group allowed 0
    rw [storeGroup_counts, setStatus_setStatus] at effect
    rw [if_pos hz]
    exact congrArg State.quiet effect
  · have refused := answer.trans (if_pos (Bool.eq_true_of_not_eq_false fun h => hz ((ownerRefuses_counts a b c).mp h)))
    have effect := writeEffect_refused (resolve_status s p) nofun entries group refused 0
    rw [if_neg hz]
    exact congrArg State.quiet effect

end Sys2Proof.Machine
end

section
/-! SUPPORT. What a change group shows: the records its content is made of, and the updates of the state that leave it alone
(R169 to R171, R183). -/

namespace Sys2Proof.Machine

/-- The change group that a record's bytes count for (R183, table of section 10.1); the change block counts for none. -/
def groupShows (g : ChangeGroup) (r : Record) : Prop :=
  match r with
  | .part | .profile | .policyGroups | .policyActions => g = 0
  | .leg _ => g = 1
  | .lane _ => 2 ≤ g.val ∧ g.val < 10
  | .tuning _ => 10 ≤ g.val ∧ g.val < 18
  | .action => g = 18
  | .status => g = 19
  | .change => False

/-- Port `p`'s view, what it may read, and the records that group `g` shows are the same in both states. -/
structure ShownSame (s t : State) (p : PortId) (g : ChangeGroup) : Prop where
  view : ∀ x, viewLane t p x = viewLane s p x
  read : ∀ f, mayRead t p f = mayRead s p f
  record : ∀ r, groupShows g r → record t p r = record s p r

theorem resolve_congr {s t : State} {p : PortId} (h : ∀ x, viewLane t p x = viewLane s p x) (block : Nat) :
    resolve t p block = resolve s p block := by
  simp only [resolve, h]

theorem viewBytes_congr {s t : State} {p : PortId} {r : Record} (hm : ∀ f, mayRead t p f = mayRead s p f)
    (hr : record t p r = record s p r) : viewBytes t p r = viewBytes s p r := by
  simp only [viewBytes, hm, hr]

/-- The records behind the blocks that leg and part groups show. -/
theorem resolve_part_group {s : State} {p : PortId} {block : Nat} {r : Record} (h : resolve s p block = some r)
    (hb : block = 0x20 ∨ block = 0x21 ∨ block = 0x22) : groupShows 0 r := by
  rcases port_cases p with rfl | ⟨k, rfl⟩
  · rcases hb with rfl | rfl | rfl <;> cases h <;> rfl
  · have unmapped : resolve s (legPort k) block = none := by
      unfold resolve
      rw [portLeg_legPort]
      rcases hb with rfl | rfl | rfl <;> rfl
    rw [unmapped] at h
    cases h

theorem resolve_leg_group {s : State} {p : PortId} {block : Nat} {r : Record} (h : resolve s p block = some r)
    (hb : block = 1 ∨ block = 2 ∨ block = 3 ∨ block = 4) : groupShows 1 r := by
  rcases port_cases p with rfl | ⟨k, rfl⟩
  · rcases hb with rfl | rfl | rfl | rfl <;> cases h <;> rfl
  · unfold resolve at h
    rw [portLeg_legPort] at h
    rcases hb with rfl | rfl | rfl | rfl <;> cases h
    rfl

theorem resolve_lane_group {s : State} {p : PortId} {g : ChangeGroup} {r : Record} (lo : 2 ≤ g.val) (hi : g.val < 10)
    (h : resolve s p (0x08 + (g.val - 2)) = some r) : groupShows g r := by
  have e := resolve_lane s p ⟨g.val - 2, by omega⟩
  obtain ⟨i, -, rfl⟩ := Option.map_eq_some_iff.mp (e.symm.trans h)
  exact ⟨lo, hi⟩

theorem resolve_tuning_group {s : State} {p : PortId} {g : ChangeGroup} {r : Record} (lo : 10 ≤ g.val)
    (hi : g.val < 18) (h : resolve s p (0x10 + (g.val - 10)) = some r) : groupShows g r := by
  have e := resolve_tuning s p ⟨g.val - 10, by omega⟩
  obtain ⟨i, -, rfl⟩ := Option.map_eq_some_iff.mp (e.symm.trans h)
  exact ⟨lo, hi⟩

/-- A group's content is made of the view, the policy and the records it shows (R183). -/
theorem ShownSame.content {s t : State} {p : PortId} {g : ChangeGroup} (h : ShownSame s t p g) :
    groupContent t p g = groupContent s p g := by
  have block : ∀ b, (∀ r, resolve s p b = some r → groupShows g r) → blockContent t p b = blockContent s p b := by
    intro b shown
    unfold blockContent
    rw [resolve_congr h.view]
    split
    · next r hr => rw [viewBytes_congr h.read (h.record r (shown r hr))]
    · rfl
  unfold groupContent
  split_ifs with h0 h1 h10 h18 h18'
  · obtain rfl : g = 0 := Fin.ext h0
    rw [partContent, viewBytes_congr h.read (h.record .part rfl), ← partContent,
      block 0x20 fun r hr => resolve_part_group hr (by decide), block 0x21 fun r hr => resolve_part_group hr (by decide),
      block 0x22 fun r hr => resolve_part_group hr (by decide)]
  · obtain rfl : g = 1 := Fin.ext h1
    rw [block 1 fun r hr => resolve_leg_group hr (by decide), block 2 fun r hr => resolve_leg_group hr (by decide),
      block 3 fun r hr => resolve_leg_group hr (by decide), block 4 fun r hr => resolve_leg_group hr (by decide)]
  · exact block _ fun r hr => resolve_lane_group (by omega) h10 hr
  · exact block _ fun r hr => resolve_tuning_group (by omega) h18 hr
  · refine block _ fun r hr => ?_
    cases hr
    exact Fin.ext h18'
  · refine block _ fun r hr => ?_
    cases hr
    exact Fin.ext (by have := g.isLt; simp; omega)

/-! ## Content under the updates of ports and lanes (R183) -/

/-- Of the ports, a content reads port `p`'s action block and port status alone (12.5). -/
theorem content_ports {s : State} {ports : Tab 5 Port} {p : PortId} {g : ChangeGroup}
    (ha : g = 18 → (ports.get p).action = (s.port p).action)
    (hs : g = 19 → (ports.get p).status = (s.port p).status) :
    groupContent { s with ports := ports } p g = groupContent s p g := by
  refine ShownSame.content ⟨fun _ => rfl, fun _ => rfl, fun r hr => ?_⟩
  cases r with
  | action =>
    show actionRecord { s with ports := ports } p = actionRecord s p
    unfold actionRecord
    rw [ha hr]
    rfl
  | status =>
    show statusRecord { s with ports := ports } p = statusRecord s p
    unfold statusRecord
    rw [hs hr]
    rfl
  | change => exact hr.elim
  | _ => rfl

@[simp] theorem content_track (b : State) (o : Option (PortId × State)) (a : State) (p : PortId) (g : ChangeGroup) :
    groupContent (track b o a) p g = groupContent a p g := by
  have port := (track_eq b o a).2 p
  exact content_ports (fun _ => (congrArg Port.action port).trans rfl) fun _ => (congrArg Port.status port).trans rfl

theorem content_setPort {s : State} {q : PortId} {x : Port} {p : PortId} {g : ChangeGroup}
    (h : p = q → (g = 18 → x.action = (s.port p).action) ∧ (g = 19 → x.status = (s.port p).status)) :
    groupContent (s.setPort q x) p g = groupContent s p g := by
  have port : (s.setPort q x).port p = if p = q then x else s.port p := State.port_setPort s q p x
  refine content_ports (fun hg => ?_) fun hg => ?_
  · refine (congrArg Port.action port).trans ?_
    split
    · next e => exact (h e).1 hg
    · rfl
  · refine (congrArg Port.status port).trans ?_
    split
    · next e => exact (h e).2 hg
    · rfl

theorem content_setPort_other {s : State} {q p : PortId} (x : Port) (h : p ≠ q) (g : ChangeGroup) :
    groupContent (s.setPort q x) p g = groupContent s p g := content_setPort fun e => absurd e h

/-- The signal and the lock of a receiver stand in no record. -/
@[simp] theorem content_setRx (s : State) (r : Receiver) (x : RxLine) (p : PortId) (g : ChangeGroup) :
    groupContent (s.setRx r x) p g = groupContent s p g := by
  cases r <;> rfl

/-- A lane is shown by its lane record and its tuning record. -/
theorem content_setLane {s : State} {i : LaneId} {l : Lane} {p : PortId} (hl : laneRecord (s.setLane i l) p i = laneRecord s p i)
    (ht : tuningRecord (s.setLane i l) p i = tuningRecord s p i) (g : ChangeGroup) :
    groupContent (s.setLane i l) p g = groupContent s p g := by
  refine ShownSame.content ⟨fun _ => rfl, fun _ => rfl, fun r _ => ?_⟩
  have other : ∀ j, j ≠ i → (s.setLane i l).lane j = s.lane j := fun j hj => s.lane_setLane_ne l hj
  cases r with
  | lane j =>
    show laneRecord (s.setLane i l) p j = laneRecord s p j
    by_cases hj : j = i
    · rw [hj, hl]
    · unfold laneRecord
      rw [other j hj]
      rfl
  | tuning j =>
    show tuningRecord (s.setLane i l) p j = tuningRecord s p j
    by_cases hj : j = i
    · rw [hj, ht]
    · unfold tuningRecord
      rw [other j hj]
  | _ => rfl

theorem stopRelock_tuning (h : Half) : tuningSection h.stopRelock = tuningSection h := by
  have fields : h.stopRelock.tuningFields = h.tuningFields := rfl
  unfold tuningSection
  rw [fields]

/-- T_relock stands in no record. -/
theorem content_stopRelock (s : State) (i : LaneId) (d : Side) (p : PortId) (g : ChangeGroup) :
    groupContent (s.setLane i ((s.lane i).setHalf d ((s.lane i).half d).stopRelock)) p g = groupContent s p g := by
  have half : ∀ e, ((s.lane i).setHalf d ((s.lane i).half d).stopRelock).half e = (s.lane i).half e ∨
      ((s.lane i).setHalf d ((s.lane i).half d).stopRelock).half e = ((s.lane i).half e).stopRelock := by
    intro e
    rw [Lane.half_setHalf]
    split
    · next h => exact .inr (by rw [h])
    · exact .inl rfl
  have lane : ∀ e, laneSection (((s.lane i).setHalf d ((s.lane i).half d).stopRelock).half e) =
      laneSection ((s.lane i).half e) := fun e => (half e).elim (congrArg laneSection) fun h => h ▸ rfl
  have tuning : ∀ e, tuningSection (((s.lane i).setHalf d ((s.lane i).half d).stopRelock).half e) =
      tuningSection ((s.lane i).half e) := fun e => (half e).elim (congrArg tuningSection) fun h =>
    (congrArg tuningSection h).trans (stopRelock_tuning _)
  refine content_setLane ?_ ?_ g
  · simp only [laneRecord, State.lane_setLane_self, lane, Lane.setHalf_state, Lane.setHalf_hold, Lane.setHalf_fc,
      Lane.setHalf_trainings, Lane.setHalf_failures, Lane.setHalf_drops, Lane.setHalf_retrains, State.setLane_route]
  · simp only [tuningRecord, State.lane_setLane_self, tuning]

/-- The request flag of the watch stands in no record. -/
theorem content_dropRequest (s : State) (i : LaneId) (p : PortId) (g : ChangeGroup) :
    groupContent (s.setLane i { s.lane i with retrainRequested := false }) p g = groupContent s p g := by
  refine content_setLane ?_ ?_ g
  · unfold laneRecord
    rw [State.lane_setLane_self]
    rfl
  · unfold tuningRecord
    rw [State.lane_setLane_self]
    rfl

end Sys2Proof.Machine
end

section
/-! SUPPORT. The marks of an event that is no port's own write: exactly the mapped groups whose shown content changed, beside
those that stood (R182, R183). -/

namespace Sys2Proof.Machine

@[simp] theorem setPort_groupMapped (s : State) (q : PortId) (x : Port) (p : PortId) (g : ChangeGroup) :
    groupMapped (s.setPort q x) p g = groupMapped s p g := rfl

/-- Port `p` marks in `t` the mapped groups that it marked in `s` or whose content it sees changed (R182, R183). -/
def marksExactly (s t : State) (p : PortId) : Prop :=
  ∀ g : ChangeGroup, (t.port p).bitmap.getLsbD g.val =
    (groupMapped t p g && ((s.port p).bitmap.getLsbD g.val || decide (groupContent s p g ≠ groupContent t p g)))

theorem bitmapLaw_of_marksExactly {s t : State} (h : ∀ p, marksExactly s t p) : t.bitmapLaw := fun p g marked => by
  rw [h p g, Bool.and_eq_true] at marked
  exact marked.1

theorem marksExactly_engineEvent {s u : State} {p : PortId} (h : (u.port p).bitmap = (s.port p).bitmap) :
    marksExactly s (engineEvent s u) p := fun g => by
  rw [engineEvent_flag, h, engineEvent, content_track, track_groupMapped]

/-- Where no content, no mapping and no mark changes, the marks that stood are exact by the law of change tracking. -/
theorem marksExactly_unseen {s t : State} {p : PortId} (law : s.bitmapLaw)
    (mapped : ∀ g, groupMapped t p g = groupMapped s p g) (shown : ∀ g, groupContent t p g = groupContent s p g)
    (kept : (t.port p).bitmap = (s.port p).bitmap) : marksExactly s t p := fun g => by
  have stood := law p g
  rw [kept, mapped, shown]
  cases marked : (s.port p).bitmap.getLsbD g.val with
  | false => simp
  | true => simp [stood marked]

/-- A command marks exactly what it changes, at every port. -/
def MarksExactly (s : State) (o : Host.Outcome State Fault Refusal) : Prop :=
  ∀ t, o = .next t → ∀ p, marksExactly s t p

section Events
variable {s : State}

theorem MarksExactly.event {u : State} (h : ∀ p, (u.port p).bitmap = (s.port p).bitmap) :
    MarksExactly s (.next (engineEvent s u)) := fun t e p => by
  cases e
  exact marksExactly_engineEvent (h p)

/-- An event at lanes leaves the ports to the Change Tracker. -/
theorem MarksExactly.lanes {u v : State} (h : LanesOnly u v) (e : u.ports = s.ports) :
    MarksExactly s (.next (engineEvent s v)) := .event fun p => by
  rw [h.port, State.port, e, State.port]

theorem MarksExactly.idle (law : s.bitmapLaw) : MarksExactly s (.next s) := fun t e p => by
  cases e
  exact marksExactly_unseen law (fun _ => rfl) (fun _ => rfl) rfl

theorem MarksExactly.receiver (law : s.bitmapLaw) (r : Receiver) (x : RxLine) :
    MarksExactly s (.next (s.setRx r x)) := fun t e p => by
  cases e
  refine marksExactly_unseen law (fun g => ?_) (content_setRx s r x p) ?_ <;> cases r <;> rfl

/-! ## Lanes after an event of their receivers -/

theorem setRx_ports (s : State) (r : Receiver) (x : RxLine) : (s.setRx r x).ports = s.ports := by
  cases r <;> rfl

theorem lineLoss_lanesOnly (s : State) (i : LaneId) (d : Side) : LanesOnly s (s.lineLoss i d) := by
  unfold State.lineLoss
  split
  · exact drop_lanesOnly s i
  · exact failSegment_lanesOnly s i d _

theorem segmentLosesSignal_lanesOnly (s : State) (i : LaneId) (d : Side) : LanesOnly s (s.segmentLosesSignal i d) := by
  unfold State.segmentLosesSignal State.scanLosesLock
  dsimp only
  split
  · exact (lineLoss_lanesOnly s i d).trans (applyOut_lanesOnly _ i d _)
  · exact applyOut_lanesOnly s i d _

theorem segmentLosesLock_lanesOnly (s : State) (i : LaneId) (d : Side) : LanesOnly s (s.segmentLosesLock i d) :=
  (LanesOnly.setLane s i _).trans (applyOut_lanesOnly _ i d _)

theorem takeReception_lanesOnly (s : State) (i : LaneId) (d : Side) (x : Reception) :
    LanesOnly s (s.takeReception i d x) := by
  cases x with
  | good f =>
    show LanesOnly s (s.goodFrame i d f)
    unfold State.goodFrame
    dsimp only
    split
    · split
      · exact .refl s
      · exact drop_lanesOnly s i
    · exact applyOut_lanesOnly s i d _
  | badCheck => exact .setLane s i _
  | inverted =>
    show LanesOnly s (if (s.lane i).state = .carry then s else _)
    split
    · exact .refl s
    · exact .setLane s i _
  | noMarker => exact .refl s

theorem timer_fails_lanesOnly (s : State) (i : LaneId) (d : Side) (f : Half → Half) (r : FailReason) :
    LanesOnly s ((s.modifyHalf i d f).failSegment i d r) :=
  (LanesOnly.setLane s i _).trans (failSegment_lanesOnly _ i d r)

/-! ## The events of receivers, timers and lanes -/

variable (law : s.bitmapLaw)
include law

theorem signalLost_marks (r : Receiver) : MarksExactly s (execSignalLost r s) := by
  unfold execSignalLost
  split
  · dsimp only
    split
    · exact .lanes (segmentLosesSignal_lanesOnly _ _ _) (setRx_ports s r _)
    · exact .receiver law r _
  · exact .idle law

theorem lockLost_marks (r : Receiver) : MarksExactly s (execLockLost r s) := by
  unfold execLockLost
  split
  · dsimp only
    split
    · exact .lanes (segmentLosesLock_lanesOnly _ _ _) (setRx_ports s r _)
    · exact .receiver law r _
  · exact .idle law

theorem lockRegained_marks (r : Receiver) : MarksExactly s (execLockRegained r s) := by
  unfold execLockRegained
  split
  · dsimp only
    split
    · next i d _ =>
      intro t e p
      cases e
      refine marksExactly_unseen law (fun g => ?_) (fun g => ?_) ?_
      · cases r <;> rfl
      · rw [content_stopRelock, content_setRx]
      · cases r <;> rfl
    · exact .receiver law r _
  · exact .idle law

theorem signalPresent_marks (r : Receiver) : MarksExactly s (execSignalPresent r s) := by
  unfold execSignalPresent
  split
  · exact .receiver law r _
  · exact .idle law

theorem frameReceived_marks (r : Receiver) (bits : BitVec 94) : MarksExactly s (execFrameReceived r bits s) := by
  unfold execFrameReceived
  split
  · split
    · split
      · exact .idle law
      · exact .lanes (takeReception_lanesOnly s _ _ _) rfl
    · exact .idle law
  · exact .idle law

theorem tAcquireExpiry_marks (i : LaneId) (d : Side) : MarksExactly s (execTAcquireExpiry i d s) := by
  unfold execTAcquireExpiry
  split
  · exact .idle law
  · exact .lanes (timer_fails_lanesOnly s i d _ _) rfl

theorem tRelockExpiry_marks (i : LaneId) (d : Side) : MarksExactly s (execTRelockExpiry i d s) := by
  unfold execTRelockExpiry
  split
  · exact .idle law
  · exact .lanes ((LanesOnly.setLane s i _).trans (lineLoss_lanesOnly _ i d)) rfl

theorem tTuneExpiry_marks (i : LaneId) (d : Side) : MarksExactly s (execTTuneExpiry i d s) := by
  unfold execTTuneExpiry
  split
  · exact .idle law
  · exact .lanes (timer_fails_lanesOnly s i d _ _) rfl

theorem tReplyExpiry_marks (i : LaneId) (d : Side) : MarksExactly s (execTReplyExpiry i d s) := by
  unfold execTReplyExpiry
  split
  · exact .idle law
  · exact .lanes (timer_fails_lanesOnly s i d _ _) rfl

theorem tSettleExpiry_marks (i : LaneId) (d : Side) : MarksExactly s (execTSettleExpiry i d s) := by
  unfold execTSettleExpiry
  split
  · exact .idle law
  · exact .lanes (applyOut_lanesOnly s i d _) rfl

theorem tQuietExpiry_marks (i : LaneId) : MarksExactly s (execTQuietExpiry i s) := by
  unfold execTQuietExpiry
  split
  · exact .lanes (moveLane_eq s i _).1 rfl
  · exact .idle law

theorem watchPeriodExpiry_marks : MarksExactly s (execWatchPeriodExpiry s) := by
  unfold execWatchPeriodExpiry
  split
  · exact .idle law
  · exact .lanes (LanesOnly.foldl _ watchLane_lanesOnly _ _) rfl

theorem scanWindowEnd_marks (i : LaneId) (d : Side) (n : Nat) : MarksExactly s (execScanWindowEnd i d n s) := by
  unfold execScanWindowEnd
  split
  · exact .lanes (applyOut_lanesOnly s i d _) rfl
  · exact .idle law

theorem watchRetrainRequest_marks (i : LaneId) : MarksExactly s (execWatchRetrainRequest i s) := by
  unfold execWatchRetrainRequest
  split
  · exact .lanes (moveLane_eq s i _).1 rfl
  · intro t e p
    cases e
    exact marksExactly_unseen law (fun _ => rfl) (content_dropRequest s i p) rfl

theorem applyLaneCase_marks (i : LaneId) : MarksExactly s (execApplyLaneCase i s) := by
  unfold execApplyLaneCase
  split
  · exact .idle law
  · exact .lanes (moveLane_eq s i _).1 rfl

/-! ## Leg reset lines, lane operations and the ends of read parts -/

omit law in
theorem legResetAsserted_marks (k : LegId) : MarksExactly s (execLegResetAsserted k s) := .event fun _ => rfl

/-- The release clears the leg's own port, so that its marks are exact at the others (R185). -/
theorem legResetReleased_marks {k : LegId} (hout : (s.port (legPort k)).handed = []) {t : State}
    (h : execLegResetReleased k s = .next t) {p : PortId} (hp : p ≠ legPort k) : marksExactly s t p := by
  unfold execLegResetReleased at h
  split at h
  · rw [settleHanded_nil hout] at h
    cases h
    intro g
    rw [State.port_setPort_ne _ _ hp, content_setPort_other _ hp, setPort_groupMapped]
    refine marksExactly_engineEvent ?_ g
    rfl
  · exact MarksExactly.idle law t h p

omit law in
/-- An action's operations leave every change bitmap alone. -/
theorem ActionOnly.bitmap {q : PortId} {u : State} (h : ActionOnly q s u) (p : PortId) :
    (u.port p).bitmap = (s.port p).bitmap := by
  by_cases hp : p = q
  · subst hp
    have own := congrArg (fun v : State => (v.port p).bitmap) h
    exact own.trans ((congrArg Port.bitmap (Tab.get_set_self _ _ _)).trans rfl)
  · exact congrArg Port.bitmap (h.keeps.1 p hp)

theorem actionLaneOperation_marks (q : PortId) (b : Fin 8) : MarksExactly s (execActionLaneOperation q b s) := by
  unfold execActionLaneOperation
  split
  · exact .idle law
  · exact .event (takeHanded_actionOnly s q _).bitmap

omit law in
theorem endReadPart_marks (q : PortId) (phase : PortPhase) : MarksExactly s (.next (endReadPart s q phase)) := by
  refine .event fun p => ?_
  rw [State.port_setPort]
  split
  · next e => rw [e]
  · rfl

theorem hostNack_marks (q : PortId) : MarksExactly s (execHostNack q s) := by
  unfold execHostNack
  split
  · exact endReadPart_marks q _
  · exact .idle law

theorem readPartEnd_marks (q : PortId) : MarksExactly s (execReadPartEnd q s) := by
  unfold execReadPartEnd
  split
  · exact endReadPart_marks q _
  · exact .idle law

end Events

/-- Settles O58, command by command. -/
theorem laneEventsMarkWhatTheyChange : Obligations.LaneEventsMarkWhatTheyChange := by
  intro c s t law h marks
  refine ⟨?_, fun k hc hout p hp => ?_⟩
  · rintro (⟨r, rfl | rfl | rfl | rfl | ⟨bits, rfl⟩⟩ | ⟨i, rfl | rfl | rfl | ⟨d, rfl | rfl | rfl | rfl | rfl | ⟨n, rfl⟩⟩⟩ |
      rfl | ⟨k, rfl⟩ | ⟨q, rfl | rfl | ⟨b, rfl⟩⟩)
    · exact signalLost_marks law r t h
    · exact lockLost_marks law r t h
    · exact lockRegained_marks law r t h
    · exact signalPresent_marks law r t h
    · exact frameReceived_marks law r bits t h
    · exact tQuietExpiry_marks law i t h
    · exact watchRetrainRequest_marks law i t h
    · exact applyLaneCase_marks law i t h
    · exact tAcquireExpiry_marks law i d t h
    · exact tRelockExpiry_marks law i d t h
    · exact tTuneExpiry_marks law i d t h
    · exact tReplyExpiry_marks law i d t h
    · exact tSettleExpiry_marks law i d t h
    · exact scanWindowEnd_marks law i d n t h
    · exact watchPeriodExpiry_marks law t h
    · exact legResetAsserted_marks k t h
    · exact hostNack_marks law q t h
    · exact readPartEnd_marks law q t h
    · exact actionLaneOperation_marks law q b t h
  · subst hc
    exact legResetReleased_marks law hout h hp

end Sys2Proof.Machine
end

section
/-! SUPPORT. The law of change tracking: every tracked event obeys it, and every other command keeps the bitmaps and the
mapping, clears the bitmaps, or ends a load in which no lane is mapped (R182, R187). -/

namespace Sys2Proof.Machine

/-! ## Mapped groups (R182) -/

/-- The LANE and TUNE groups are mapped with their lane; every other group is always mapped. -/
theorem groupMapped_of_not_lane {g : ChangeGroup} (h : ¬ (2 ≤ g.val ∧ g.val < 18)) (s : State) (p : PortId) :
    groupMapped s p g = true := by
  unfold groupMapped
  rw [if_neg (by omega), if_neg (by omega)]

theorem not_lane_of_groupMapped {s : State} {p : PortId} {g : ChangeGroup} (h : groupMapped s p g = true)
    (hv : ∀ x, viewLane s p x = none) : ¬ (2 ≤ g.val ∧ g.val < 18) := by
  rintro ⟨lo, hi⟩
  unfold groupMapped at h
  by_cases h10 : g.val < 10
  · rw [if_pos ⟨lo, h10⟩, hv] at h
    cases h
  · rw [if_neg (by omega), if_pos ⟨by omega, hi⟩, hv] at h
    cases h

/-! ## Updates that keep the law -/

theorem bitmapLaw_setPort {s : State} {p : PortId} {x : Port} (law : s.bitmapLaw)
    (hx : ∀ g : ChangeGroup, x.bitmap.getLsbD g.val = true → (s.port p).bitmap.getLsbD g.val = true) :
    (s.setPort p x).bitmapLaw := fun q g marked => by
  rw [State.port_setPort] at marked
  split at marked
  · next e =>
    subst e
    exact law q g (hx g marked)
  · exact law q g marked

/-- A part whose ports are all reset marks nothing. -/
theorem bitmapLaw_of_reset {s : State} (h : ∀ p, s.port p = Port.reset) : s.bitmapLaw := fun p g marked => by
  rw [h p] at marked
  exact absurd marked (by simp [Port.reset])

/-- The law after a load that a lawful part in LOADING ends with a good image: no lane was mapped before it (R6, R58). -/
theorem bitmapLaw_loadGood {s : State} (leg : s.legLaw) (law : s.bitmapLaw) (hp : s.part ≠ .running) (img : FactoryImage) :
    (s.loadGood img).bitmapLaw := by
  have ports : (s.loadGood img).ports = s.ports := by
    rcases loadGood_cases s img with ⟨-, e⟩ | ⟨r, k, e⟩ <;> rw [e] <;> rfl
  intro p g marked
  have stood : (s.port p).bitmap.getLsbD g.val = true := by rwa [State.port, ports] at marked
  exact groupMapped_of_not_lane
    (not_lane_of_groupMapped (law p g stood) (viewLane_disabled leg.1 (loading_off leg hp).1 p)) _ p

/-! ## Commands -/

/-- A command that takes the law of change tracking from `s` to the state it leaves. -/
def KeepsBitmapLaw (s : State) (o : Host.Outcome State Fault Refusal) : Prop :=
  s.bitmapLaw → ∀ t, o = .next t → t.bitmapLaw

theorem KeepsBitmapLaw.next {s t : State} (h : s.bitmapLaw → t.bitmapLaw) : KeepsBitmapLaw s (.next t) :=
  fun law u e => by
    cases e
    exact h law

theorem KeepsBitmapLaw.idle (s : State) : KeepsBitmapLaw s (.next s) := .next id

theorem KeepsBitmapLaw.of_marks {s : State} {o : Host.Outcome State Fault Refusal}
    (h : s.bitmapLaw → MarksExactly s o) : KeepsBitmapLaw s o := fun law t e => bitmapLaw_of_marksExactly (h law t e)

theorem KeepsBitmapLaw.setPort {s : State} {p : PortId} {x : Port} (h : x.bitmap = (s.port p).bitmap) :
    KeepsBitmapLaw s (.next (s.setPort p x)) := .next fun law => bitmapLaw_setPort law fun _ => h ▸ id

section Commands
variable (s : State)

theorem imageLoadComplete_keepsBitmapLaw (found : Option FactoryImage) (leg : s.legLaw) :
    KeepsBitmapLaw s (execImageLoadComplete found s) := by
  unfold execImageLoadComplete
  split
  · next h =>
    refine .next fun law => ?_
    rw [completeLoad_eq]
    split
    · have loading : s.part ≠ .running := by
        rw [h.1]
        nofun
      exact bitmapLaw_loadGood (s := { s with store := found.getD s.store }) leg law loading _
    · exact bitmapLaw_of_reset fun p => Tab.get_fill _ _
  · exact .idle s

theorem bitmapLaw_settleHanded {s : State} (law : s.bitmapLaw) (p : PortId) : (settleHanded s p).bitmapLaw := by
  unfold settleHanded
  generalize (s.port p).handed.length = n
  induction n generalizing s with
  | zero => exact law
  | succ n ih =>
    simp only [settleUpTo]
    split
    · exact law
    · exact ih (track_bitmapLaw _ _ _)

theorem legResetReleased_keepsBitmapLaw (k : LegId) : KeepsBitmapLaw s (execLegResetReleased k s) := by
  unfold execLegResetReleased
  split
  · exact .next fun _ => bitmapLaw_setPort (track_bitmapLaw _ _ _) fun g marked =>
      absurd marked (by simp [Port.legRelease, Port.reset])
  · exact .idle s

theorem bitmapLaw_writeStop (s : State) (p : PortId) (block : Nat) (b : HoldingBuffer) (later : BitVec 8) :
    (writeStop s p block b later).bitmapLaw := by
  unfold writeStop
  exact track_bitmapLaw _ _ _

theorem bitmapLaw_endReadPart (s : State) (p : PortId) (phase : PortPhase) : (endReadPart s p phase).bitmapLaw :=
  bitmapLaw_of_marksExactly (endReadPart_marks p phase _ rfl)

theorem bitmapLaw_endWritePart {s : State} (law : s.bitmapLaw) (p : PortId) (later : BitVec 8) :
    (endWritePart s p later).bitmapLaw := by
  unfold endWritePart
  dsimp only
  refine bitmapLaw_setPort ?_ fun _ => id
  split
  · exact bitmapLaw_writeStop s p _ _ later
  · exact law

theorem bitmapLaw_endPart {s : State} (law : s.bitmapLaw) (p : PortId) : (endPart s p).bitmapLaw := by
  unfold endPart
  split
  · exact law
  · exact bitmapLaw_endReadPart s p _
  · exact bitmapLaw_endReadPart s p _
  · exact bitmapLaw_endWritePart law p 0

theorem busStartAddress_keepsBitmapLaw (p : PortId) (addr : BitVec 7) (dir : BusDir) :
    KeepsBitmapLaw s (execBusStartAddress p addr dir s) := by
  have ended : s.bitmapLaw → (endPart (settleHanded s p) p).bitmapLaw := fun law =>
    bitmapLaw_endPart (bitmapLaw_settleHanded law p) p
  unfold execBusStartAddress
  split
  · dsimp only
    split
    · exact .next fun law => bitmapLaw_setPort (ended law) fun _ => id
    · exact .next fun law => bitmapLaw_setPort (ended law) fun _ => id
  · exact .idle s

theorem pointerByte_keepsBitmapLaw (p : PortId) (b : Byte) : KeepsBitmapLaw s (execPointerByte p b s) := by
  unfold execPointerByte
  split
  · exact .setPort rfl
  · exact .setPort rfl
  · exact .idle s

theorem dataByteWritten_keepsBitmapLaw (p : PortId) (b : Byte) : KeepsBitmapLaw s (execDataByteWritten p b s) := by
  unfold execDataByteWritten
  split
  · exact .setPort rfl
  · exact .idle s

theorem readByteSent_keepsBitmapLaw (p : PortId) : KeepsBitmapLaw s (execReadByteSent p s) := by
  unfold execReadByteSent
  split
  · exact .setPort rfl
  · exact .idle s

theorem registerWrite_keepsBitmapLaw (p : PortId) (later : BitVec 8) : KeepsBitmapLaw s (execRegisterWrite p later s) := by
  unfold execRegisterWrite
  split
  · exact .next fun law => bitmapLaw_endWritePart law p later
  · exact .idle s

theorem hostWrite_keepsBitmapLaw (p : PortId) (block : Nat) (entries : List (Nat × Byte)) (later : BitVec 8) :
    KeepsBitmapLaw s (.next (hostWrite s p block entries later)) := by
  unfold hostWrite
  split
  · exact .next fun _ => bitmapLaw_writeStop s p block _ later
  · exact .idle s

/-- Every command keeps the law of change tracking where the laws of the leg hold (R182). -/
theorem exec_keepsBitmapLaw (c : Instr) (leg : s.legLaw) : KeepsBitmapLaw s (exec c s) := by
  cases c <;> simp only [exec]
  case powerOn => exact .next fun _ => bitmapLaw_of_reset fun p => Tab.get_fill _ _
  case switchResetAsserted => exact .next fun _ => bitmapLaw_of_reset fun p => Tab.get_fill _ _
  case switchResetReleased =>
    unfold execSwitchResetReleased
    split
    · exact .next id
    · exact .idle s
  case imageLoadComplete found => exact imageLoadComplete_keepsBitmapLaw s found leg
  case legResetAsserted k => exact .of_marks fun _ => legResetAsserted_marks k
  case legResetReleased k => exact legResetReleased_keepsBitmapLaw s k
  case signalLost r => exact .of_marks fun law => signalLost_marks law r
  case lockLost r => exact .of_marks fun law => lockLost_marks law r
  case lockRegained r => exact .of_marks fun law => lockRegained_marks law r
  case signalPresent r => exact .of_marks fun law => signalPresent_marks law r
  case frameReceived r bits => exact .of_marks fun law => frameReceived_marks law r bits
  case tAcquireExpiry i d => exact .of_marks fun law => tAcquireExpiry_marks law i d
  case tRelockExpiry i d => exact .of_marks fun law => tRelockExpiry_marks law i d
  case tTuneExpiry i d => exact .of_marks fun law => tTuneExpiry_marks law i d
  case tReplyExpiry i d => exact .of_marks fun law => tReplyExpiry_marks law i d
  case tSettleExpiry i d => exact .of_marks fun law => tSettleExpiry_marks law i d
  case tQuietExpiry i => exact .of_marks fun law => tQuietExpiry_marks law i
  case watchPeriodExpiry => exact .of_marks watchPeriodExpiry_marks
  case scanWindowEnd i d n => exact .of_marks fun law => scanWindowEnd_marks law i d n
  case watchRetrainRequest i => exact .of_marks fun law => watchRetrainRequest_marks law i
  case applyLaneCase i => exact .of_marks fun law => applyLaneCase_marks law i
  case actionLaneOperation p b => exact .of_marks fun law => actionLaneOperation_marks law p b
  case hostNack p => exact .of_marks fun law => hostNack_marks law p
  case readPartEnd p => exact .of_marks fun law => readPartEnd_marks law p
  case busStartAddress p addr dir => exact busStartAddress_keepsBitmapLaw s p addr dir
  case pointerByte p b => exact pointerByte_keepsBitmapLaw s p b
  case dataByteWritten p b => exact dataByteWritten_keepsBitmapLaw s p b
  case readByteSent p => exact readByteSent_keepsBitmapLaw s p
  case registerWrite p later => exact registerWrite_keepsBitmapLaw s p later
  all_goals exact hostWrite_keepsBitmapLaw s _ _ _ _

end Commands

/-- Settles O55: the queue stands outside the law, and every command keeps it. -/
theorem stepsKeepTheBitmapLaw : Obligations.StepsKeepTheBitmapLaw := by
  intro s t leg law h
  unfold step at h
  split at h
  · cases h
    exact law
  · next c rest _ => exact exec_keepsBitmapLaw { s with pending := rest } c leg law t h

end Sys2Proof.Machine
end

section
/-! SUPPORT. The write stops of BITMAP_CLEAR and ALERT_MASK_WRITE: one group of the change block stored, which no other port
and of the own port only STATUS can show (R167, R177, R183 to R185). -/

namespace Sys2Proof.Machine

/-! ## Flags in three bytes (12.5) -/

theorem flagBytes_word (x : BitVec 20) : BitVec.ofNat 20 ((byte x.toNat).toNat +
    256 * (byte (x.toNat / 256)).toNat + 65536 * (byte (x.toNat / 65536)).toNat) = x := by
  apply BitVec.eq_of_toNat_eq
  have := x.isLt
  simp only [byte, BitVec.toNat_ofNat]
  omega

theorem flagWord_flagEntries (block : Option Nat) (flags : BitVec 20) :
    flagWord ⟨block, flagEntries 0 flags⟩ 0 = flags := flagBytes_word flags

theorem writtenMask_flagEntries (old : BitVec 20) (block : Option Nat) (mask : BitVec 20) :
    writtenMask old ⟨block, flagEntries 4 mask⟩ = mask := flagBytes_word mask

theorem flagEntries_bitmap (s : State) (p : PortId) (flags : BitVec 20) :
    ∀ e ∈ flagEntries 0 flags, groupAt s p .change e.1 = .bitmap := by
  simp only [flagEntries, List.mem_cons, List.not_mem_nil, or_false, forall_eq_or_imp, forall_eq]
  exact ⟨rfl, rfl, rfl⟩

theorem flagEntries_mask (s : State) (p : PortId) (mask : BitVec 20) :
    ∀ e ∈ flagEntries 4 mask, groupAt s p .change e.1 = .mask := by
  simp only [flagEntries, List.mem_cons, List.not_mem_nil, or_false, forall_eq_or_imp, forall_eq]
  exact ⟨rfl, rfl, rfl⟩

/-- Only a leg host is refused a group of the change block, by the group's own write entry (R175, R177). -/
theorem judgeWrite_change {s : State} {p : PortId} {g : FieldGroup} {n : Nat}
    (hg : g = .bitmap ∧ n = 18 ∨ g = .mask ∧ n = 19) (h : p = 0 ∨ s.policy.write.getLsbD n = true) :
    judgeWrite s p .change g = .allow := by
  have writable : fixedRefuses p .change g = false := by
    rcases hg with ⟨rfl, -⟩ | ⟨rfl, -⟩ <;> simp [fixedRefuses, FieldGroup.readOnly]
  have position : g.position = some n := by
    rcases hg with ⟨rfl, rfl⟩ | ⟨rfl, rfl⟩ <;> rfl
  have allowed : mayWrite s p g = true := by
    unfold mayWrite
    rw [position]
    split
    · rfl
    · next h0 => exact h.resolve_left h0
  unfold judgeWrite
  rw [classBusy_free s p (r := .change) nofun nofun nofun, writable, allowed]
  rfl

/-! ## The marks of a write of the change block -/

/-- A flag after the write stop of port `p` that stored its groups in `mid`: for port `p` a group counts as changed only if
the part has changed it since (R183; log 19). -/
theorem track_flag (b mid a : State) (p q : PortId) (g : ChangeGroup) :
    ((track b (some (p, mid)) a).port q).bitmap.getLsbD g.val =
      (groupMapped a q g && ((a.port q).bitmap.getLsbD g.val || (decide (groupContent b q g ≠ groupContent a q g) &&
        (decide (q ≠ p) || decide (groupContent mid q g ≠ groupContent a q g))))) := by
  simp only [State.port, track, Tab.get_mapIdx, BitVec.getLsbD_and, BitVec.getLsbD_or, mappedFlags_getLsbD]
  rw [Bool.and_comm]
  split
  · next e => simp only [BitVec.getLsbD_and, changedFlags_getLsbD, e, ne_eq, not_true_eq_false, decide_false, Bool.false_or]
  · next e => simp only [changedFlags_getLsbD, ne_eq, e, not_false_eq_true, decide_true, Bool.true_or, Bool.and_true]

/-- A group whose content the write stop leaves alone keeps its mark while it is mapped (R183). -/
theorem track_flag_same {b mid a : State} {p q : PortId} {g : ChangeGroup} (h : groupContent a q g = groupContent b q g) :
    ((track b (some (p, mid)) a).port q).bitmap.getLsbD g.val =
      (groupMapped a q g && (a.port q).bitmap.getLsbD g.val) := by
  rw [track_flag, h]
  simp

theorem bitmap_ext {x y : BitVec 20} (h : ∀ g : ChangeGroup, x.getLsbD g.val = y.getLsbD g.val) : x = y :=
  BitVec.eq_of_getLsbD_eq fun i hi => h ⟨i, hi⟩

/-- A mark that stands is one of a mapped group (R182). -/
theorem mapped_and_stood {s : State} (law : s.bitmapLaw) (p : PortId) (g : ChangeGroup) :
    (groupMapped s p g && (s.port p).bitmap.getLsbD g.val) = (s.port p).bitmap.getLsbD g.val := by
  have stood := law p g
  cases marked : (s.port p).bitmap.getLsbD g.val with
  | false => simp
  | true => simp [stood marked]

/-! States that differ in the ports alone. -/

theorem frame_setPort (s : State) (p : PortId) (x : Port) : s.setPort p x = { s with ports := (s.setPort p x).ports } := rfl

theorem frame_trans {a b c : State} (h : a = { b with ports := a.ports }) (h' : b = { c with ports := b.ports }) :
    a = { c with ports := a.ports } := h.trans (congrArg (fun u : State => { u with ports := a.ports }) h')

theorem eq_of_frame {a b c : State} (ha : a = { c with ports := a.ports }) (hb : b = { c with ports := b.ports })
    (h : a.ports = b.ports) : a = b :=
  ha.trans ((congrArg (fun x => { c with ports := x }) h).trans hb.symm)

/-- The part after a write stop that has stored the bitmap and the mask of port `p` and sets its status. -/
def changeStored (s : State) (p : PortId) (bitmap mask : BitVec 20) (f : PortStatus → PortStatus) (mid : State) : State :=
  track s (some (p, mid)) ((s.setPort p { s.port p with bitmap := bitmap, mask := mask }).setStatus p f)

section Change
variable {s : State} {p : PortId} {bitmap mask : BitVec 20} {f : PortStatus → PortStatus} {mid : State}

theorem changeStored_port : (changeStored s p bitmap mask f mid).port p = { s.port p with
    mask := mask
    status := f (s.port p).status
    bitmap := ((changeStored s p bitmap mask f mid).port p).bitmap } := by
  refine ((track_eq s _ _).2 p).trans ?_
  simp only [State.setStatus, State.port_setPort_self, changeStored]

/-- The change block counts for no group, and the status for STATUS at the own port. -/
theorem content_changeStored {q : PortId} {g : ChangeGroup} (h : q = p → g ≠ 19) :
    groupContent ((s.setPort p { s.port p with bitmap := bitmap, mask := mask }).setStatus p f) q g =
      groupContent s q g := by
  unfold State.setStatus
  rw [setPort_setPort]
  refine content_setPort fun e => ⟨fun _ => ?_, fun hg => absurd hg (h e)⟩
  rw [State.port_setPort_self, e]

/-- Of the own port's marks such a write changes the stored ones, and STATUS. -/
theorem changeStored_flag {g : ChangeGroup} (hg : g ≠ 19) :
    ((changeStored s p bitmap mask f mid).port p).bitmap.getLsbD g.val =
      (groupMapped s p g && bitmap.getLsbD g.val) := by
  refine (track_flag_same (content_changeStored fun _ => hg)).trans ?_
  simp only [State.setStatus, State.port_setPort_self, setPort_groupMapped]

theorem changeStored_other (law : s.bitmapLaw) {q : PortId} (hq : q ≠ p) :
    (changeStored s p bitmap mask f mid).port q = s.port q := by
  have port : ((s.setPort p { s.port p with bitmap := bitmap, mask := mask }).setStatus p f).port q = s.port q :=
    (State.port_setPort_ne _ _ hq).trans (State.port_setPort_ne _ _ hq)
  have marks : ((changeStored s p bitmap mask f mid).port q).bitmap = (s.port q).bitmap := bitmap_ext fun g => by
    refine (track_flag_same (content_changeStored fun e => absurd e hq)).trans ?_
    rw [port]
    exact mapped_and_stood law q g
  have kept := (track_eq s (some (p, mid))
    ((s.setPort p { s.port p with bitmap := bitmap, mask := mask }).setStatus p f)).2 q
  rw [port] at kept
  rw [changeStored] at marks ⊢
  rw [kept, marks]

theorem changeStored_offAction (law : s.bitmapLaw) : (changeStored s p bitmap mask f mid).offAction p =
    (s.setPort p { s.port p with mask := mask }).offAction p := by
  have ports : ((changeStored s p bitmap mask f mid).offAction p).ports =
      ((s.setPort p { s.port p with mask := mask }).offAction p).ports := by
    apply Tab.ext_get
    intro q
    show ((changeStored s p bitmap mask f mid).offAction p).port q =
      ((s.setPort p { s.port p with mask := mask }).offAction p).port q
    unfold State.offAction
    by_cases hq : q = p
    · rw [hq, State.port_setPort_self, State.port_setPort_self, changeStored_port, State.port_setPort_self]
    · rw [State.port_setPort_ne _ _ hq, State.port_setPort_ne _ _ hq, State.port_setPort_ne _ _ hq,
        changeStored_other law hq]
  have frame : changeStored s p bitmap mask f mid = { s with ports := (changeStored s p bitmap mask f mid).ports } :=
    frame_trans (track_eq s _ _).1 (frame_trans (frame_setPort _ _ _) (frame_setPort _ _ _))
  exact eq_of_frame (frame_trans (frame_setPort _ _ _) frame) (frame_trans (frame_setPort _ _ _) (frame_setPort _ _ _)) ports

end Change

/-- A write stop of one allowed group of the change block. -/
theorem hostWrite_change {s : State} {p : PortId} {g : FieldGroup} {entries : List (Nat × Byte)} {bitmap mask : BitVec 20}
    (hack : acknowledges s p = true) (hout : (s.port p).handed = []) (hne : entries ≠ [])
    (hg : ∀ e ∈ entries, groupAt s p .change e.1 = g) (ha : groupAnswer s p .change ⟨some 0x32, entries⟩ g = .allow)
    (hx : storeGroup p .change ⟨some 0x32, entries⟩ s g = s.setPort p { s.port p with bitmap := bitmap, mask := mask }) :
    ∃ mid, hostWrite s p 0x32 entries 0 =
      changeStored s p bitmap mask (fun st => st.afterWrite 0x32 ⟨1, 0, 0, none⟩) mid := by
  obtain ⟨e, rest, he⟩ := List.exists_cons_of_ne_nil hne
  refine ⟨(writeEffect s p 0x32 ⟨some 0x32, entries⟩ 0).1, ?_⟩
  unfold hostWrite
  rw [if_pos ⟨hack, hne⟩]
  unfold writeStop
  rw [settleHanded_nil hout]
  dsimp only
  rw [writeEffect_allowed (resolve_change s p) nofun he hg ha 0, hx]
  rfl

/-- Settles O36: either write stop stores its group of the change block alone. -/
theorem bitmapAndMaskAreWritten : Obligations.BitmapAndMaskAreWritten := by
  intro p flags s hack hout law
  have answer : ∀ {g : FieldGroup} {b : HoldingBuffer}, g = .bitmap ∨ g = .mask → judgeWrite s p .change g = .allow →
      groupAnswer s p .change b g = .allow := by
    intro g b hg h
    unfold groupAnswer
    rw [h]
    rcases hg with rfl | rfl <;> rfl
  refine ⟨fun may => ?_, fun may => ?_⟩
  · obtain ⟨mid, stop⟩ := hostWrite_change hack hout (nofun : flagEntries 0 flags ≠ []) (flagEntries_bitmap s p flags)
      (answer (.inl rfl) (judgeWrite_change (.inl ⟨rfl, rfl⟩) may))
      (bitmap := (s.port p).bitmap &&& ~~~flags) (mask := (s.port p).mask)
      (by simp only [storeGroup, flagWord_flagEntries])
    refine ⟨_, congrArg Host.Outcome.next stop, fun g hg => ?_, ?_, ?_, ?_⟩
    · rw [changeStored_flag hg, BitVec.getLsbD_and, BitVec.getLsbD_not, ← Bool.and_assoc, mapped_and_stood law,
        decide_eq_true g.isLt, Bool.true_and]
    · rw [changeStored_port]
      rfl
    · unfold alertLine
      rw [changeStored_port]
    · rw [changeStored_offAction law]
      exact congrArg (State.offAction · p) (State.setPort_port_self s p)
  · obtain ⟨mid, stop⟩ := hostWrite_change hack hout (nofun : flagEntries 4 flags ≠ []) (flagEntries_mask s p flags)
      (answer (.inr rfl) (judgeWrite_change (.inr ⟨rfl, rfl⟩) may))
      (bitmap := (s.port p).bitmap) (mask := flags) (by simp only [storeGroup, writtenMask_flagEntries])
    refine ⟨_, congrArg Host.Outcome.next stop, fun g hg => ?_, ?_, ?_, changeStored_offAction law⟩
    · rw [changeStored_flag hg, mapped_and_stood law]
    · rw [changeStored_port]
      rfl
    · unfold alertLine
      rw [changeStored_port]

end Sys2Proof.Machine
end

section
/-! SUPPORT. The marks of a write stop that takes no action: at other ports what changed, at the own port STATUS at most, where
the part has changed it (R182, R183; log 19). -/

namespace Sys2Proof.Machine

/-! ## The groups of a record (12.3 to 12.5) -/

/-- The groups that a port's own blocks and the policy table hold stand in those records alone. -/
def FieldGroup.standsIn (g : FieldGroup) (r : Record) : Prop :=
  match g with
  | .request => r = .action
  | .counts => r = .status
  | .bitmap | .mask => r = .change
  | .readEntries | .writeEntries | .actionEntries | .farEntry => r = .policyGroups ∨ r = .policyActions
  | _ => True

theorem groupAt_standsIn (s : State) (p : PortId) (r : Record) (off : Nat) : (groupAt s p r off).standsIn r := by
  have listed : ∀ {gs : List FieldGroup}, (record s p r).map Prod.fst = gs → (∀ g ∈ gs, g.standsIn r) →
      (groupAt s p r off).standsIn r := by
    intro gs h all
    rw [groupAt_eq h, List.getD_eq_getElem?_getD]
    cases hg : gs[off]? with
    | none => exact trivial
    | some g => exact all g (List.mem_of_getElem? hg)
  cases r with
  | part => exact listed (partRecord_groups s p) (by simp [FieldGroup.standsIn])
  | leg k => exact listed (legRecord_groups s p k) (by simp [FieldGroup.standsIn])
  | lane i => exact listed (laneRecord_groups s p i) (by simp [groupRuns, FieldGroup.standsIn])
  | tuning i => exact listed (tuningRecord_groups s p i) (by simp [groupRuns, FieldGroup.standsIn])
  | profile => exact listed (profileRecord_groups s p) (by simp [FieldGroup.standsIn])
  | policyGroups => exact listed (policyGroupsRecord_groups s p) (by simp [FieldGroup.standsIn])
  | policyActions => exact listed (policyActionsRecord_groups s p) (by simp [FieldGroup.standsIn])
  | action => exact listed (actionRecord_groups s p) (by simp [groupRuns, FieldGroup.standsIn])
  | status => exact listed (statusRecord_groups s p) (by simp [FieldGroup.standsIn])
  | change => exact listed (changeRecord_groups s p) (by simp [FieldGroup.standsIn])

theorem mem_writtenGroups {s : State} {p : PortId} {r : Record} {b : HoldingBuffer} {g : FieldGroup}
    (h : g ∈ writtenGroups s p r b) : ∃ e ∈ b.entries, groupAt s p r e.1 = g := by
  unfold writtenGroups at h
  rw [List.mem_eraseDups] at h
  exact List.mem_map.mp h

theorem writtenGroups_standsIn {s : State} {p : PortId} {r : Record} {b : HoldingBuffer} {g : FieldGroup}
    (h : g ∈ writtenGroups s p r b) : g.standsIn r := by
  obtain ⟨e, -, rfl⟩ := mem_writtenGroups h
  exact groupAt_standsIn s p r e.1

/-- The blocks of the port's own records, and the one port that maps the policy table (R169, R170). -/
theorem resolve_own {s : State} {p : PortId} {block : Nat} {r : Record} (h : resolve s p block = some r) :
    (r = .action → block = 0x30) ∧ (r = .status → block = 0x31) ∧ (r = .change → block = 0x32) ∧
      (r = .policyGroups ∨ r = .policyActions → p = 0) := by
  have leg : r = .policyGroups ∨ r = .policyActions → p = 0 := by
    rcases port_cases p with rfl | ⟨k, rfl⟩
    · exact fun _ => rfl
    · unfold resolve at h
      rw [portLeg_legPort] at h
      rintro (rfl | rfl) <;> simp [ite_eq_iff, Option.map_eq_some_iff] at h
  refine ⟨?_, ?_, ?_, leg⟩
  all_goals
    rintro rfl
    unfold resolve at h
    cases hp : portLeg p <;> simp [hp, ite_eq_iff, Option.map_eq_some_iff] at h <;> omega

/-! ## What storing the groups of a write leaves of the port's marks and status -/

theorem port_config (s : State) (h w d k : Nat) (pp : Profile) (t : PolicyTable) (p : PortId) :
    ({ s with hysteresis := h, pWatch := w, dDrop := d, kAlarm := k, pendingProfile := pp, policy := t } : State).port p =
      s.port p :=
  rfl

theorem storeLegGroup_ports (k : LegId) (g : FieldGroup) (b : HoldingBuffer) (s : State) :
    (storeLegGroup k g b s).ports = s.ports ∧ (storeLegGroup k g b s).policy = s.policy := by
  have leg : ∀ c, (s.setLeg k c).ports = s.ports ∧ (s.setLeg k c).policy = s.policy := fun _ => ⟨rfl, rfl⟩
  unfold storeLegGroup
  dsimp only
  split
  case h_1 | h_2 | h_3 => exact leg _
  all_goals exact ⟨rfl, rfl⟩

theorem storeGroup_bitmap (p : PortId) (r : Record) (b : HoldingBuffer) (s : State) {g : FieldGroup} (hg : g ≠ .bitmap) :
    ((storeGroup p r b s g).port p).bitmap = (s.port p).bitmap := by
  unfold storeGroup
  split
  case h_8 => rw [State.setAction, State.port_setPort_self]
  case h_9 => rw [State.port_setPort_self]
  case h_10 => exact absurd rfl hg
  case h_11 => rw [State.port_setPort_self]
  case h_12 =>
    split
    · rw [State.port, (storeLegGroup_ports _ _ b s).1, State.port]
    · rfl
  all_goals exact congrArg Port.bitmap (port_config s _ _ _ _ _ _ p)

/-- Port `p`'s status and what its host may read stand as in `s`. -/
def StatusKept (s : State) (p : PortId) (u : State) : Prop :=
  (u.port p).status = (s.port p).status ∧ (p = 0 ∨ u.policy = s.policy)

section
variable {s u : State} {p : PortId} (h : StatusKept s p u)
include h

theorem StatusKept.config (a w d k : Nat) (pp : Profile) :
    StatusKept s p { u with hysteresis := a, pWatch := w, dDrop := d, kAlarm := k, pendingProfile := pp } :=
  h

theorem StatusKept.master (hp : p = 0) (t : PolicyTable) : StatusKept s p { u with policy := t } :=
  ⟨h.1, .inl hp⟩

theorem StatusKept.setPort {x : Port} (hx : x.status = (u.port p).status) : StatusKept s p (u.setPort p x) :=
  ⟨by rw [State.port_setPort_self, hx]; exact h.1, h.2⟩

theorem StatusKept.storeGroup (r : Record) (b : HoldingBuffer) {g : FieldGroup} (hg : g ≠ .counts) (hr : g.standsIn r)
    (hp : r = .policyGroups ∨ r = .policyActions → p = 0) : StatusKept s p (storeGroup p r b u g) := by
  unfold Machine.storeGroup
  split
  case h_8 => exact h.setPort rfl
  case h_9 => exact absurd rfl hg
  case h_10 => exact h.setPort rfl
  case h_11 => exact h.setPort rfl
  case h_12 =>
    split
    · obtain ⟨ports, policy⟩ := storeLegGroup_ports ‹_› g b u
      unfold StatusKept State.port
      rw [ports, policy]
      exact h
    · exact h
  case h_4 | h_5 | h_6 | h_7 => exact h.master (hp hr) _
  all_goals exact h.config _ _ _ _ _

end

/-- What every stored group keeps, the storing of a write keeps. -/
theorem storeGroups_keeps {P : State → Prop} {s : State} {p : PortId} {r : Record} {b : HoldingBuffer} (h : P s)
    (hg : ∀ u, ∀ g ∈ writtenGroups s p r b, P u → P (storeGroup p r b u g)) : P (storeGroups s p r b) := by
  unfold storeGroups
  have sub : ∀ g ∈ (writtenGroups s p r b).filter fun g => decide (groupAnswer s p r b g = .allow),
      g ∈ writtenGroups s p r b := fun g => List.mem_of_mem_filter
  generalize (writtenGroups s p r b).filter _ = gs at sub
  suffices all : ∀ u, P u → P (gs.foldl (storeGroup p r b) u) from all s h
  induction gs with
  | nil => exact fun u hu => hu
  | cons g gs ih =>
    exact fun u hu => ih (fun g' hg' => sub g' (.tail _ hg')) _ (hg u g (sub g (.head _)) hu)

theorem storeGroups_bitmap {s : State} {p : PortId} {r : Record} {b : HoldingBuffer}
    (h : ∀ g ∈ writtenGroups s p r b, g ≠ .bitmap) :
    ((storeGroups s p r b).port p).bitmap = (s.port p).bitmap :=
  storeGroups_keeps (P := fun u => (u.port p).bitmap = (s.port p).bitmap) rfl fun u g hg hu =>
    (storeGroup_bitmap p r b u (h g hg)).trans hu

theorem storeGroups_statusKept {s : State} {p : PortId} {block : Nat} {r : Record} {b : HoldingBuffer}
    (hr : resolve s p block = some r) (h : ∀ g ∈ writtenGroups s p r b, g ≠ .counts) :
    StatusKept s p (storeGroups s p r b) := by
  obtain ⟨-, -, -, policy⟩ := resolve_own hr
  exact storeGroups_keeps ⟨rfl, .inr rfl⟩ fun u g hg hu => hu.storeGroup r b (h g hg) (writtenGroups_standsIn hg) policy

theorem StoreOnly.viewLane {p : PortId} {s t : State} (h : StoreOnly p s t) (q : PortId) (x : Fin 8) :
    viewLane t q x = viewLane s q x := by
  obtain ⟨-, -, -, inverse, current, wiring, -⟩ := h
  unfold Machine.viewLane
  rw [inverse, current, wiring]

/-- STATUS shows the port's status through the view and the policy (12.5, R177). -/
theorem StatusKept.content {s u : State} {p : PortId} (h : StatusKept s p u) (only : StoreOnly p s u) :
    groupContent u p 19 = groupContent s p 19 := by
  obtain ⟨status, policy⟩ := h
  refine ShownSame.content ⟨only.viewLane p, fun f => ?_, fun r hr => ?_⟩
  · unfold mayRead
    rcases policy with rfl | policy
    · rfl
    · rw [policy]
  · cases r with
    | status =>
      show statusRecord u p = statusRecord s p
      have same : (u.ports.get p).status = (s.ports.get p).status := status
      simp only [statusRecord, same]
    | _ => simp [groupShows] at hr

/-! ## The marks of a write stop (R183; log 19) -/

/-- Port `q`'s flag for group `g` is `b`, if its view maps the group (R182). -/
def markedAs (t : State) (q : PortId) (g : ChangeGroup) (b : Bool) : Prop :=
  (t.port q).bitmap.getLsbD g.val = (groupMapped t q g && b)

/-- The flag stood, or the group's content as port `q` sees it has changed. -/
def stoodOrDiffers (s t : State) (q : PortId) (g : ChangeGroup) : Bool :=
  (s.port q).bitmap.getLsbD g.val || decide (groupContent s q g ≠ groupContent t q g)

/-- The marks of a write stop of port `p` that takes no action: at other ports what changed; at the own port no group but
STATUS if no flag was stored, and STATUS where the part has changed it if moreover no count was. -/
structure StopMarks (s t : State) (p : PortId) (noFlags noCounts : Prop) : Prop where
  other : ∀ q g, q ≠ p → markedAs t q g (stoodOrDiffers s t q g)
  own : noFlags → ∀ g : ChangeGroup, g ≠ 19 → markedAs t p g ((s.port p).bitmap.getLsbD g.val)
  status : noFlags → noCounts → markedAs t p 19 (stoodOrDiffers s t p 19)

theorem content_setStatus {s : State} {p q : PortId} {g : ChangeGroup} (f : PortStatus → PortStatus)
    (h : q = p → g ≠ 19) : groupContent (s.setStatus p f) q g = groupContent s q g :=
  content_setPort fun e => ⟨fun _ => by rw [e], fun hg => absurd hg (h e)⟩

/-- A write that is none leaves the marks that stood, which are exact by the law of change tracking. -/
theorem StopMarks.idle {s : State} (law : s.bitmapLaw) (p : PortId) (A B : Prop) : StopMarks s s p A B := by
  have same : ∀ q g, markedAs s q g (stoodOrDiffers s s q g) := fun q g =>
    marksExactly_unseen law (fun _ => rfl) (fun _ => rfl) rfl g
  exact ⟨fun q g _ => same q g, fun _ g _ => (mapped_and_stood law p g).symm, fun _ _ => same p 19⟩

/-- A tracked write: `mid` holds the stored groups, and the part sets the status since. -/
theorem StopMarks.tracked {s mid : State} {p : PortId} {noFlags noCounts : Prop} (f : PortStatus → PortStatus)
    (only : StoreOnly p s mid) (flags : noFlags → (mid.port p).bitmap = (s.port p).bitmap)
    (counts : noCounts → StatusKept s p mid) :
    StopMarks s (track s (some (p, mid)) (mid.setStatus p f)) p noFlags noCounts := by
  obtain ⟨-, -, -, -, -, -, -, -, ports⟩ := id only
  have own_bitmap : ((mid.setStatus p f).port p).bitmap = (mid.port p).bitmap := by
    rw [State.setStatus, State.port_setPort_self]
  refine ⟨fun q g hq => ?_, fun hf g hg => ?_, fun hf hc => ?_⟩
  · have port : (mid.setStatus p f).port q = s.port q := (State.port_setPort_ne _ _ hq).trans (ports q hq)
    unfold markedAs stoodOrDiffers
    rw [track_flag, port, content_track, track_groupMapped]
    simp only [ne_eq, hq, not_false_eq_true, decide_true, Bool.true_or, Bool.and_true]
  · unfold markedAs
    rw [track_flag, own_bitmap, flags hf, content_setStatus f fun _ => hg, track_groupMapped]
    simp only [ne_eq, not_true_eq_false, decide_false, Bool.or_false, Bool.and_false]
  · unfold markedAs stoodOrDiffers
    rw [track_flag, own_bitmap, flags hf, content_track, track_groupMapped, (counts hc).content only]
    simp only [ne_eq, not_true_eq_false, decide_false, Bool.false_or, Bool.and_self]

/-- A write stop that takes no action stores its groups, if its block is mapped, and sets the port's status. -/
theorem writeEffect_stores {s : State} {p : PortId} {block : Nat} (b : HoldingBuffer) (later : BitVec 8)
    (h : resolve s p block ≠ some .action) :
    ∃ mid f, writeEffect s p block b later = (mid, mid.setStatus p f) ∧
      (mid = s ∨ ∃ r, resolve s p block = some r ∧ mid = storeGroups s p r b) := by
  cases hr : resolve s p block with
  | none =>
    unfold writeEffect
    rw [hr]
    exact ⟨s, _, rfl, .inl rfl⟩
  | some r =>
    have noCode : writesCode s p r b = false := by
      have hne : r ≠ .action := fun e => h (hr.trans (congrArg some e))
      unfold writesCode
      rw [decide_eq_false hne]
      rfl
    refine ⟨storeGroups s p r b, fun st => st.afterWrite block (tallyGroups s p r b), ?_, .inr ⟨r, rfl, rfl⟩⟩
    unfold writeEffect
    rw [hr]
    dsimp only
    rw [noCode]
    rfl

/-- A write stop in a block other than the action block stores flags in block 0x32 and counts in block 0x31 alone. -/
theorem writeStop_marks {s : State} {p : PortId} {block : Nat} (b : HoldingBuffer) {noFlags noCounts : Prop}
    (hout : (s.port p).handed = []) (hne : block ≠ 0x30)
    (flags : noFlags → block = 0x32 → ∀ e ∈ b.entries, groupAt s p .change e.1 ≠ .bitmap)
    (counts : noCounts → block ≠ 0x31) (later : BitVec 8) :
    StopMarks s (writeStop s p block b later) p noFlags noCounts := by
  have other : resolve s p block ≠ some .action := fun h => hne ((resolve_own h).1 rfl)
  obtain ⟨mid, f, effect, stored⟩ := writeEffect_stores b later other
  unfold writeStop
  rw [settleHanded_nil hout]
  dsimp only
  rw [effect]
  rcases stored with rfl | ⟨r, hr, rfl⟩
  · exact .tracked f (.refl p _) (fun _ => rfl) fun _ => ⟨rfl, .inr rfl⟩
  · obtain ⟨-, status, change, -⟩ := resolve_own hr
    refine .tracked f (storeGroups_storeOnly s p r b) (fun hf => storeGroups_bitmap ?_) fun hc =>
      storeGroups_statusKept hr ?_
    · rintro g hg rfl
      obtain rfl : r = .change := writtenGroups_standsIn hg
      obtain ⟨e, he, heg⟩ := mem_writtenGroups hg
      exact flags hf (change rfl) e he heg
    · rintro g hg rfl
      exact counts hc (status (writtenGroups_standsIn hg))

theorem StopMarks.host {s : State} {p : PortId} {block : Nat} {entries : List (Nat × Byte)} {noFlags noCounts : Prop}
    (law : s.bitmapLaw) (hout : (s.port p).handed = []) (hne : block ≠ 0x30)
    (flags : noFlags → block = 0x32 → ∀ e ∈ entries, groupAt s p .change e.1 ≠ .bitmap)
    (counts : noCounts → block ≠ 0x31) (later : BitVec 8) :
    StopMarks s (hostWrite s p block entries later) p noFlags noCounts := by
  unfold hostWrite
  split
  · exact writeStop_marks ⟨some block, entries⟩ hout hne flags counts later
  · exact .idle law p _ _

/-- The phase, the buffer and the line of a port stand in no record. -/
theorem StopMarks.ended {s t : State} {p : PortId} {noFlags noCounts : Prop} (h : StopMarks s t p noFlags noCounts) :
    StopMarks s (t.partEnded p) p noFlags noCounts := by
  have bitmap : ∀ q, ((t.partEnded p).port q).bitmap = (t.port q).bitmap := fun q => by
    unfold State.partEnded
    rw [State.port_setPort]
    split
    · next e => rw [e]
    · rfl
  have content : ∀ q g, groupContent (t.partEnded p) q g = groupContent t q g := fun q g =>
    content_setPort fun e => e ▸ ⟨fun _ => rfl, fun _ => rfl⟩
  have mapped : ∀ q g, groupMapped (t.partEnded p) q g = groupMapped t q g := fun q g =>
    setPort_groupMapped t p _ q g
  have kept : ∀ {q g b}, markedAs t q g b → markedAs (t.partEnded p) q g b := fun {q g b} hm => by
    unfold markedAs
    rw [bitmap, mapped]
    exact hm
  have differs : ∀ q g, stoodOrDiffers s (t.partEnded p) q g = stoodOrDiffers s t q g := fun q g => by
    unfold stoodOrDiffers
    rw [content]
  refine ⟨fun q g hq => ?_, fun hf g hg => kept (h.own hf g hg), fun hf hc => ?_⟩
  · rw [differs]
    exact kept (h.other q g hq)
  · rw [differs]
    exact kept (h.status hf hc)

/-- The commands that end a write part or stand for a write stop of their own, but for actions. -/
inductive StopCommand (s : State) (p : PortId) : Instr → Prop
  | counts (x y z : Option Byte) : StopCommand s p (.countsZero p x y z)
  | mask (m : BitVec 20) : StopCommand s p (.alertMaskWrite p m)
  | clear (m : BitVec 20) : StopCommand s p (.bitmapClear p m)
  | write (phase : (s.port p).phase.isWrite = true) (block : (s.port p).buffer.block ≠ some 0x30) (later : BitVec 8) :
      StopCommand s p (.registerWrite p later)

theorem StopCommand.marks {s : State} {p : PortId} {c : Instr} (hc : StopCommand s p c) (law : s.bitmapLaw)
    (hout : (s.port p).handed = []) : ∃ t, exec c s = .next t ∧ StopMarks s t p
      ((∀ m, c ≠ .bitmapClear p m) ∧ (s.port p).buffer.block ≠ some 0x32)
      ((∀ x y z, c ≠ .countsZero p x y z) ∧ (s.port p).buffer.block ≠ some 0x31) := by
  cases hc with
  | counts x y z =>
    exact ⟨_, rfl, .host law hout (by decide) (fun _ h => absurd h (by decide)) (fun ⟨h, _⟩ => absurd rfl (h x y z)) 0⟩
  | mask m =>
    refine ⟨_, rfl, .host law hout (by decide) (fun _ _ e he => ?_) (fun _ => by decide) 0⟩
    rw [flagEntries_mask s p m e he]
    decide
  | clear m => exact ⟨_, rfl, .host law hout (by decide) (fun ⟨h, _⟩ => absurd rfl (h m)) (fun _ => by decide) 0⟩
  | write phase hne later =>
    refine ⟨_, if_pos phase, ?_⟩
    cases hb : (s.port p).buffer.block with
    | none =>
      have ended : endWritePart s p later = s.partEnded p := by
        unfold endWritePart
        dsimp only
        rw [hb]
        rfl
      rw [ended]
      exact (StopMarks.idle law p _ _).ended
    | some block =>
      rw [hb] at hne
      rw [endWritePart_eq later hb]
      refine (writeStop_marks _ hout (fun e => hne (congrArg some e)) (fun ⟨_, h⟩ e => ?_) (fun ⟨_, h⟩ e => ?_) later).ended
      · exact absurd (congrArg some e) h
      · exact h (congrArg some e)

end Sys2Proof.Machine
end

section
/-! SUPPORT. The marks of an action: what it changed at every port and, of a valid apply, the groups it forces (R183; log 18). -/

namespace Sys2Proof.Machine

theorem setAction_bitmap (s : State) (p : PortId) (f : ActionBlock → ActionBlock) (q : PortId) :
    ((s.setAction p f).port q).bitmap = (s.port q).bitmap := (setAction_actionOnly p s f).bitmap q

theorem setStatus_bitmap (s : State) (p : PortId) (f : PortStatus → PortStatus) (q : PortId) :
    ((s.setStatus p f).port q).bitmap = (s.port q).bitmap := by
  unfold State.setStatus
  rw [State.port_setPort]
  split
  · next e => rw [e]
  · rfl

/-! ## A valid apply (R183, "Applies") -/

/-- What a valid apply from `b` to `v` marks at port `q`, if mapped, whether or not bytes change. -/
def applyForces (b v : State) (q : PortId) (g : ChangeGroup) : Prop :=
  q = 0 ∧ (g = 0 ∨ (2 ≤ g.val ∧ g.val < 18)) ∨
    ∃ k, q = legPort k ∧ ((2 ≤ g.val ∧ g.val < 18 ∧ (b.current.legs.get k).enabled ≠ (v.current.legs.get k).enabled) ∨
      (g = 1 ∧ b.legState.get k ≠ v.legState.get k))

theorem applyForces_congr {b b' v v' : State} (hb : b.current = b'.current) (hb' : b.legState = b'.legState)
    (hv : v.current = v'.current) (hv' : v.legState = v'.legState) (q : PortId) (g : ChangeGroup) :
    applyForces b v q g ↔ applyForces b' v' q g := by
  unfold applyForces
  rw [hb, hb', hv, hv']

theorem applyForces_zero {b v : State} {g : ChangeGroup} :
    applyForces b v 0 g ↔ g = 0 ∨ (2 ≤ g.val ∧ g.val < 18) := by
  refine ⟨?_, fun h => .inl ⟨rfl, h⟩⟩
  rintro (⟨-, h⟩ | ⟨k, hk, -⟩)
  · exact h
  · exact absurd hk.symm (legPort_ne_zero k)

theorem applyForces_leg {b v : State} {k : LegId} {g : ChangeGroup} : applyForces b v (legPort k) g ↔
    (2 ≤ g.val ∧ g.val < 18 ∧ (b.current.legs.get k).enabled ≠ (v.current.legs.get k).enabled) ∨
      (g = 1 ∧ b.legState.get k ≠ v.legState.get k) := by
  refine ⟨?_, fun h => .inr ⟨k, rfl, h⟩⟩
  rintro (⟨hk, -⟩ | ⟨m, hm, h⟩)
  · exact absurd hk (legPort_ne_zero k)
  · rwa [legPort_inj hm]

theorem laneAndTuneFlags_getLsbD (g : ChangeGroup) :
    laneAndTuneFlags.getLsbD g.val = decide (2 ≤ g.val ∧ g.val < 18) := flagsOf_getLsbD _ g

theorem partFlag_getLsbD (g : ChangeGroup) : (1#20).getLsbD g.val = decide (g = 0) := by
  revert g
  decide

theorem legFlag_getLsbD (g : ChangeGroup) : legFlag.getLsbD g.val = decide (g = 1) := by
  revert g
  decide

theorem legApplyFlags_getLsbD {b v : State} {k : LegId} {g : ChangeGroup} (hm : groupMapped v (legPort k) g = true) :
    (legApplyFlags b v k).getLsbD g.val = true ↔ applyForces b v (legPort k) g := by
  rw [applyForces_leg, legApplyFlags, BitVec.getLsbD_or, Bool.or_eq_true]
  refine or_congr ?_ ?_
  · split
    · next e => simp [e]
    · next e =>
      rw [BitVec.getLsbD_and, laneAndTuneFlags_getLsbD, mappedFlags_getLsbD, hm, Bool.and_true, decide_eq_true_eq]
      simp only [ne_eq, e, not_false_eq_true, and_true]
  · split
    · next e => simp [e]
    · next e =>
      rw [legFlag_getLsbD, decide_eq_true_eq]
      simp only [ne_eq, e, not_false_eq_true, and_true]

/-- The flags after the marks of a valid apply. -/
theorem markApply_getLsbD (b : State) {v : State} {q : PortId} {g : ChangeGroup} (hm : groupMapped v q g = true) :
    ((markApply b v).port q).bitmap.getLsbD g.val = true ↔
      (v.port q).bitmap.getLsbD g.val = true ∨ applyForces b v q g := by
  obtain ⟨-, master, leg⟩ := markApply_eq b v
  rcases port_cases q with rfl | ⟨k, rfl⟩
  · rw [master, applyForces_zero]
    simp only [BitVec.getLsbD_or, BitVec.getLsbD_and, laneAndTuneFlags_getLsbD, mappedFlags_getLsbD, partFlag_getLsbD, hm,
      Bool.or_eq_true, Bool.and_true, decide_eq_true_eq]
    exact or_congr_right or_comm
  · rw [leg, BitVec.getLsbD_or, Bool.or_eq_true, legApplyFlags_getLsbD hm]

/-! ## The Action Unit -/

/-- The Action Unit of port `p` finds an apply that passes the whole-action tests, and the pending profile is valid. -/
structure ValidApply (u : State) (p : PortId) : Prop where
  test : actionTest u p (u.port p).action.code.toNat (u.port p).action.args = .passed .applyProfile
  running : u.part = .running
  valid : validate u.wiring u.pendingProfile = none

theorem actionTest_applyProfile {s : State} {p : PortId} {n : Nat} {args : ActionArgs} :
    actionTest s p n args = .passed .applyProfile ↔ n = 13 ∧ judgeAction s p 13 = .allow := by
  constructor
  · intro h
    obtain ⟨code, allowed⟩ := actionTest_passed h
    obtain rfl : n = 13 := code_of_actionOfCode code
    exact ⟨rfl, allowed⟩
  · rintro ⟨rfl, allowed⟩
    unfold actionTest
    rw [allowed]
    rfl

/-- A part-wide action changes no mark, but for a valid apply. -/
theorem partOperation_ports {s : State} {a : Action}
    (h : a = .applyProfile → ¬ (s.part = .running ∧ validate s.wiring s.pendingProfile = none)) :
    (partOperation s a).1.ports = s.ports := by
  cases a with
  | freeze =>
    show s.freezeWatch.ports = s.ports
    unfold State.freezeWatch
    split <;> rfl
  | thaw =>
    show s.thawWatch.ports = s.ports
    unfold State.thawWatch
    split <;> rfl
  | softReset =>
    show s.softReset.1.ports = s.ports
    unfold State.softReset
    split <;> rfl
  | applyProfile =>
    by_cases running : s.part = .running
    · cases hv : validate s.wiring s.pendingProfile with
      | none => exact absurd ⟨running, hv⟩ (h rfl)
      | some x =>
        obtain ⟨r, k⟩ := x
        rw [partOperation_refused (apply_invalid running hv) (validate_ne_done hv)]
    · rw [partOperation_refused (apply_notRunning running) nofun]
  | _ => rfl

theorem runAction_bitmap {u : State} {p : PortId} {a : Action} (later : BitVec 8)
    (h : a = .applyProfile → ¬ (u.part = .running ∧ validate u.wiring u.pendingProfile = none)) (q : PortId) :
    ((u.runAction p a later).port q).bitmap = (u.port q).bitmap := by
  by_cases mask : a.usesMask = true
  · exact (runAction_actionOnly u p a later mask).bitmap q
  · unfold State.runAction
    dsimp only
    rw [if_neg mask, setAction_bitmap, State.port, partOperation_ports (s := u.setAction p _) h]
    exact setAction_bitmap u p _ q

theorem takeAction_bitmap {u : State} {p : PortId} (later : BitVec 8) (h : ¬ ValidApply u p) (q : PortId) :
    ((u.takeAction p later).1.port q).bitmap = (u.port q).bitmap := by
  unfold State.takeAction
  dsimp only
  split
  · next a passed => exact runAction_bitmap later (fun e ⟨running, valid⟩ => h ⟨e ▸ passed, running, valid⟩) q
  · exact setAction_bitmap u p _ q
  · exact setAction_bitmap u p _ q

theorem appliedWith_port (s : State) (x : Profile) (q : PortId) : (s.appliedWith x).port q = s.port q := rfl

/-- The flags after a valid apply. -/
theorem takeAction_validApply {u : State} {p : PortId} (later : BitVec 8) (h : ValidApply u p) {q : PortId}
    {g : ChangeGroup} (hm : groupMapped (u.takeAction p later).1 q g = true) :
    ((u.takeAction p later).1.port q).bitmap.getLsbD g.val = true ↔
      (u.port q).bitmap.getLsbD g.val = true ∨ applyForces u (u.takeAction p later).1 q g := by
  obtain ⟨test, running, valid⟩ := h
  obtain ⟨r, hr, f, taken⟩ : ∃ r, r = u.setAction p (fun x => { x with perLane := Tab.fill 8 .none }) ∧
      ∃ f, (u.takeAction p later).1 = (markApply r (r.appliedWith r.pendingProfile)).setAction p f := by
    refine ⟨_, rfl, fun b => { b with overall := .done }, ?_⟩
    unfold State.takeAction
    dsimp only
    rw [test]
    exact congrArg (fun x : State × Overall => x.1.setAction p fun b => { b with overall := x.2 })
      (partOperation_applied (apply_valid (s := u.setAction p _) running valid))
  have quiet := (markApply_eq r (r.appliedWith r.pendingProfile)).1
  have mapped : groupMapped (r.appliedWith r.pendingProfile) q g = true :=
    (congrArg (fun v => groupMapped v q g) quiet).symm.trans ((congrArg (fun v => groupMapped v q g) taken).symm.trans hm)
  rw [taken, setAction_bitmap, markApply_getLsbD r mapped]
  rw [appliedWith_port, hr, setAction_bitmap, ← hr]
  exact or_congr_right (applyForces_congr (hr ▸ rfl) (hr ▸ rfl) (congrArg State.current quiet).symm
    (congrArg State.legState quiet).symm q g)

/-! ## The marks of an action (R183; logs 18 and 19) -/

/-- The action is a valid apply that reaches the Route Map Unit. -/
def issuesApply (s : State) (p : PortId) (code : Byte) : Prop :=
  code = 13 ∧ actionReady s p 13 ∧ s.part = .running ∧ validate s.wiring s.pendingProfile = none

/-- A flag after an action: mapped, and it stood, or a valid apply forces it, or the shown content has changed, at the own
port also since the request fields were stored. -/
def ActionMarks (s t : State) (p : PortId) (code : Byte) (args : ActionArgs) : Prop :=
  ∀ q g, (t.port q).bitmap.getLsbD g.val = true ↔ groupMapped t q g = true ∧
    (((s.port q).bitmap.getLsbD g.val = true ∨ issuesApply s p code ∧ applyForces s t q g) ∨
      groupContent s q g ≠ groupContent t q g ∧
        (q ≠ p ∨ groupContent (s.withRequest p code args) q g ≠ groupContent t q g))

theorem track_flag_iff (b mid a : State) (p q : PortId) (g : ChangeGroup) :
    ((track b (some (p, mid)) a).port q).bitmap.getLsbD g.val = true ↔ groupMapped a q g = true ∧
      ((a.port q).bitmap.getLsbD g.val = true ∨
        groupContent b q g ≠ groupContent a q g ∧ (q ≠ p ∨ groupContent mid q g ≠ groupContent a q g)) := by
  rw [track_flag]
  simp only [Bool.and_eq_true, Bool.or_eq_true, decide_eq_true_eq]

section
variable {s : State} {p : PortId} {code : Byte} {args : ActionArgs}

theorem ActionMarks.idle (law : s.bitmapLaw) (h : ¬ issuesApply s p code) : ActionMarks s s p code args := fun q g => by
  have stood := law q g
  simp only [h, ne_eq, not_true_eq_false, false_and, or_false, iff_and_self]
  exact stood

/-- An action that changes no other mark than the forced ones, tracked from the stored request fields. -/
theorem ActionMarks.tracked {a : State} (flags : ∀ q g, groupMapped a q g = true →
      ((a.port q).bitmap.getLsbD g.val = true ↔
        (s.port q).bitmap.getLsbD g.val = true ∨ issuesApply s p code ∧ applyForces s a q g)) :
    ActionMarks s (track s (some (p, s.withRequest p code args)) a) p code args := fun q g => by
  rw [track_flag_iff, content_track, track_groupMapped]
  exact and_congr_right fun mapped => or_congr_left (flags q g mapped)

theorem ActionMarks.refused (f : PortStatus → PortStatus) (h : ¬ issuesApply s p code) :
    ActionMarks s (track s (some (p, s)) (s.setStatus p f)) p code args := fun q g => by
  rw [track_flag_iff, content_track, track_groupMapped, setStatus_bitmap]
  simp only [h, false_and, or_false]
  refine and_congr_right fun _ => or_congr_right (and_congr_right fun changed => or_congr_right ?_)
  by_cases hg : q = p ∧ g = 19
  · obtain ⟨rfl, rfl⟩ := hg
    have status : groupContent (s.withRequest q code args) q 19 = groupContent s q 19 :=
      content_setPort fun _ => ⟨nofun, fun _ => rfl⟩
    rw [status]
  · exact absurd (content_setStatus f fun e e' => hg ⟨e, e'⟩).symm changed

theorem validApply_requested (hack : acknowledges s p = true) (hout : (s.port p).handed = [])
    (hw : judgeWrite s p .action .request = .allow) : ValidApply (s.withRequest p code args) p ↔ issuesApply s p code := by
  have test : actionTest (s.withRequest p code args) p ((s.withRequest p code args).port p).action.code.toNat
      ((s.withRequest p code args).port p).action.args = actionTest s p code.toNat args := actionTest_requested
  have code13 : code.toNat = 13 ↔ code = 13 := BitVec.toNat_inj (y := 13)
  constructor
  · rintro ⟨passed, running, valid⟩
    rw [test, actionTest_applyProfile, code13] at passed
    obtain ⟨rfl, allowed⟩ := passed
    exact ⟨rfl, ⟨hack, hout, hw, allowed⟩, running, valid⟩
  · rintro ⟨rfl, ⟨-, -, -, allowed⟩, running, valid⟩
    exact ⟨test.trans (actionTest_applyProfile.mpr ⟨rfl, allowed⟩), running, valid⟩

theorem withRequest_bitmap (q : PortId) : ((s.withRequest p code args).port q).bitmap = (s.port q).bitmap :=
  setAction_bitmap s p (fun x => x.requested code args) q

/-- The flags after an action that may be taken. -/
theorem takeAction_marks (hack : acknowledges s p = true) (hout : (s.port p).handed = [])
    (hw : judgeWrite s p .action .request = .allow) (later : BitVec 8) {q : PortId} {g : ChangeGroup}
    (mapped : groupMapped ((s.withRequest p code args).takeAction p later).1 q g = true) :
    (((s.withRequest p code args).takeAction p later).1.port q).bitmap.getLsbD g.val = true ↔
      (s.port q).bitmap.getLsbD g.val = true ∨
        issuesApply s p code ∧ applyForces s ((s.withRequest p code args).takeAction p later).1 q g := by
  have iff := validApply_requested (code := code) (args := args) hack hout hw
  by_cases applies : ValidApply (s.withRequest p code args) p
  · rw [takeAction_validApply later applies mapped, withRequest_bitmap, and_iff_right (iff.mp applies)]
    rfl
  · rw [takeAction_bitmap later applies, withRequest_bitmap, or_iff_left fun h => applies (iff.mpr h.1)]

theorem issueCode_marks (law : s.bitmapLaw) (hout : (s.port p).handed = []) (later : BitVec 8) :
    ActionMarks s (issueCode s p code args later) p code args := by
  by_cases hack : acknowledges s p = true
  · by_cases hw : judgeWrite s p .action .request = .allow
    · rw [issueCode_eq code args later hack hout hw]
      refine .tracked fun q g mapped => ?_
      rw [setStatus_bitmap]
      exact takeAction_marks hack hout hw later mapped
    · have notIssued : ¬ issuesApply s p code := fun ⟨_, ⟨_, _, allowed, _⟩, _⟩ => hw allowed
      have refused : judgeWrite s p .action .request = .refused := by
        rw [judgeWrite_request] at hw ⊢
        split at hw
        · exact absurd rfl hw
        · next closed => rw [if_neg closed]
      rw [issueCode_acknowledged hack]
      unfold writeStop
      rw [settleHanded_nil hout]
      dsimp only
      rw [(requestEntries_bytes code args).effect_refused refused]
      exact .refused _ notIssued
  · have unanswered : issueCode s p code args later = s := if_neg fun h => hack h.1
    rw [unanswered]
    exact .idle law fun ⟨_, ⟨ack, _⟩, _⟩ => hack ack

end

end Sys2Proof.Machine
end

section
/-! PROOFS. O59: what the commands of a port's host mark, and the operations that are taken before them (R144, R148; log 10). -/

namespace Sys2Proof.Machine

/-! ## Operations out -/

/-- State `u` is `s` after the first operation out through port `p`: what is out beside it is settled alike, and what a
command of the port's host looks at first stands. -/
structure FirstTaken (s u : State) (p : PortId) : Prop where
  settled : settleHanded s p = settleHanded u p
  acknowledged : acknowledges u p = acknowledges s p
  phase : (u.port p).phase = (s.port p).phase
  buffer : (u.port p).buffer = (s.port p).buffer

theorem ActionOnly.host_kept {p : PortId} {s t : State} (h : ActionOnly p s t) :
    (t.port p).phase = (s.port p).phase ∧ (t.port p).buffer = (s.port p).buffer := by
  have port : t.port p = { s.port p with action := (t.port p).action, handed := (t.port p).handed } :=
    (congrArg (fun v : State => v.port p) h).trans (Tab.get_set_self _ _ _)
  rw [port]
  exact ⟨rfl, rfl⟩

theorem engineEvent_host_kept (s t : State) (p : PortId) :
    ((engineEvent s t).port p).phase = (t.port p).phase ∧ ((engineEvent s t).port p).buffer = (t.port p).buffer := by
  unfold engineEvent
  rw [(track_eq s none t).2 p]
  exact ⟨rfl, rfl⟩

theorem acknowledges_congr {s t : State} (part : t.part = s.part) (wiring : t.wiring = s.wiring) (p : PortId) :
    acknowledges t p = acknowledges s p := by
  unfold acknowledges
  rw [part, wiring]

theorem actionLaneOperation_first {s : State} {p : PortId} {op : HandedOp} {rest : List HandedOp}
    (h : (s.port p).handed = op :: rest) :
    ∃ u, exec (.actionLaneOperation p op.bit) s = .next u ∧ FirstTaken s u p := by
  have taken := takeHanded_actionOnly s p op
  obtain ⟨-, -, -, wiring, -, -, -, -, -, part, -⟩ := taken.keeps
  obtain ⟨phase, buffer⟩ := taken.host_kept
  obtain ⟨phase', buffer'⟩ := engineEvent_host_kept s (s.takeHanded p op) p
  have found : s.handedAt p op.bit = some op := by
    unfold State.handedAt
    rw [h]
    exact List.find?_cons_of_pos (decide_eq_true rfl)
  refine ⟨engineEvent s (s.takeHanded p op), ?_, settleHanded_cons h, acknowledges_congr part wiring p,
    phase'.trans phase, buffer'.trans buffer⟩
  show execActionLaneOperation p op.bit s = _
  unfold execActionLaneOperation
  rw [found]

section Taken
variable {s u : State} {p : PortId} (h : FirstTaken s u p)
include h

theorem FirstTaken.writeStop (block : Nat) (b : HoldingBuffer) (later : BitVec 8) :
    writeStop s p block b later = writeStop u p block b later := by
  unfold Machine.writeStop
  rw [h.settled]

theorem FirstTaken.hostWrite (block : Nat) {entries : List (Nat × Byte)} (later : BitVec 8)
    (hack : acknowledges s p = true) (hne : entries ≠ []) :
    hostWrite s p block entries later = hostWrite u p block entries later :=
  (if_pos ⟨hack, hne⟩).trans ((h.writeStop _ _ _).trans (if_pos ⟨h.acknowledged.trans hack, hne⟩).symm)

theorem FirstTaken.busStartAddress (addr : BitVec 7) (dir : BusDir) (hack : acknowledges s p = true) :
    execBusStartAddress p addr dir s = execBusStartAddress p addr dir u := by
  unfold execBusStartAddress
  rw [if_pos hack, if_pos (h.acknowledged.trans hack), h.settled]

theorem FirstTaken.registerWrite (later : BitVec 8) (hphase : (s.port p).phase.isWrite = true)
    (hblock : (s.port p).buffer.block ≠ none) : execRegisterWrite p later s = execRegisterWrite p later u := by
  obtain ⟨block, hb⟩ := Option.ne_none_iff_exists'.mp hblock
  have hphase' : (u.port p).phase.isWrite = true := h.phase ▸ hphase
  unfold execRegisterWrite
  rw [if_pos hphase, if_pos hphase', endWritePart_eq later hb, endWritePart_eq later (h.buffer ▸ hb), h.writeStop,
    h.buffer]

end Taken

/-- Settles O59: the marks of a write stop follow from what storing its groups leaves of the own port's flags and status, those
of an action from what the Action Unit changes besides the flags a valid apply forces. -/
theorem portCommandsMarkWhatTheyChange : Obligations.PortCommandsMarkWhatTheyChange := by
  refine ⟨fun c s t p law hout hc => ⟨fun kind => ?_, fun code args hi => ?_⟩, fun c s p op rest hh kind => ?_⟩
  · have stop : StopCommand s p c := by
      rcases kind with ⟨x, y, z, rfl⟩ | ⟨m, rfl⟩ | ⟨m, rfl⟩ | ⟨phase, block, later, rfl⟩
      · exact .counts x y z
      · exact .mask m
      · exact .clear m
      · exact .write phase block later
    obtain ⟨t', ht, marks⟩ := stop.marks law hout
    obtain rfl : t' = t := Host.Outcome.next.inj (ht.symm.trans hc)
    exact ⟨marks.other, fun g hg clear block => marks.own ⟨clear, block⟩ g hg,
      fun counts clear status change => marks.status ⟨clear, change⟩ ⟨counts, status⟩⟩
  · intro applies forced q g
    obtain rfl : issueCode s p code args (issuedLater c) = t := Host.Outcome.next.inj ((exec_issued hi s).symm.trans hc)
    have marks := issueCode_marks (code := code) (args := args) law hout (issuedLater c) q g
    rw [Bool.eq_iff_iff, marks]
    simp only [Bool.and_eq_true, Bool.or_eq_true, decide_eq_true_eq]
    rfl
  · obtain ⟨u, hu, taken⟩ := actionLaneOperation_first hh
    refine ⟨u, hu, ?_⟩
    rcases kind with ⟨hack, ⟨m, rfl⟩ | ⟨m, rfl⟩ | ⟨addr, dir, rfl⟩ | ⟨x, y, z, rfl, some⟩ | ⟨code, args, hi⟩⟩ |
      ⟨phase, block, later, rfl⟩
    · exact congrArg Host.Outcome.next (taken.hostWrite 0x32 0 hack nofun)
    · exact congrArg Host.Outcome.next (taken.hostWrite 0x32 0 hack nofun)
    · exact taken.busStartAddress addr dir hack
    · obtain ⟨e, es, entries⟩ := countsBuffer_entries x y z some
      exact congrArg Host.Outcome.next (taken.hostWrite 0x31 0 hack fun none => List.cons_ne_nil _ _ (entries.symm.trans none))
    · rw [exec_issued hi, exec_issued hi]
      exact congrArg Host.Outcome.next (taken.hostWrite 0x30 _ hack nofun)
    · exact taken.registerWrite later phase block

end Sys2Proof.Machine
end

section
/-! PROOFS. O6: a load that finds a bad image, or a good one whose default profile is invalid (R6, R15, R186 to R188). -/

namespace Sys2Proof.Machine

/-- A load that finds a bad image (R186, R187). -/
theorem badLoad_eq {s : State} {found : Option FactoryImage} {cause : FaultCause} (hp : s.part = .loading)
    (hl : s.loadRunning = true) (hc : imageCause (found.getD s.store) = cause) (bad : cause ≠ .none) :
    exec (.imageLoadComplete found) s =
      .next (({ s with store := found.getD s.store } : State).loadBad (found.getD s.store) cause) := by
  subst hc
  rw [execImageLoadComplete_running found hp hl, completeLoad_eq]
  dsimp only
  rw [if_neg bad]

/-- A load that finds a good image whose default profile is refused (R6, R187). -/
theorem refusedLoad_eq {s : State} {found : Option FactoryImage} {img : FactoryImage} {r : ApplyOutcome} {k : LegId}
    (hf : found.getD s.store = img) (hp : s.part = .loading) (hl : s.loadRunning = true)
    (hc : imageCheck (imageBytes img) = img.check) (hw : wiringValid img.wiring = true)
    (hv : validate (installWiring img.wiring) img.profile = some (r, k)) :
    exec (.imageLoadComplete found) s =
      .next (({ s with store := img } : State).loadedWith img disabledProfile r k) := by
  rw [execImageLoadComplete_running found hp hl, completeLoad_eq, hf]
  dsimp only
  rw [if_pos (imageCause_none hc hw)]
  exact congrArg Host.Outcome.next (loadGood_invalid { s with store := img } hv)

theorem disabledProfile_disabled (k : LegId) : (disabledProfile.legs.get k).enabled = false :=
  congrArg LegProfile.enabled (Tab.get_fill disabledLeg k)

section Disabled
variable {s : State} (was : ∀ k, (s.current.legs.get k).enabled = false)
include was

/-- A load that installs a profile without enabled legs keeps every lane (R15). -/
theorem loadedWith_disabled_lanes (img : FactoryImage) (r : ApplyOutcome) (m : LegId) :
    (s.loadedWith img disabledProfile r m).lanes = s.lanes := by
  apply Tab.ext_get
  intro i
  refine (loadedWith_lane s img disabledProfile r m i).trans ?_
  cases hk : (s.withImage img disabledProfile r m).legOf i with
  | none => exact applyLane_none _ hk
  | some k => exact applyLane_stays _ hk (was k) (disabledProfile_disabled k)

/-- Such a load leaves every leg DISABLED (R15, R54). -/
theorem loadedWith_disabled_legState (img : FactoryImage) (r : ApplyOutcome) (m k : LegId) :
    (s.loadedWith img disabledProfile r m).legState.get k = .disabled := by
  rw [loadedWith_legState, was, disabledProfile_disabled]
  rfl

end Disabled

/-- Settles O6: a bad image ends the load in `State.loadBad`, a refused default profile in `State.loadedWith` the profile
without enabled legs, where no lane and no leg was enabled before. -/
theorem badImagesAndProfilesAreRefused : Obligations.BadImagesAndProfilesAreRefused := by
  intro found s img hp hl
  refine ⟨fun check => ?_, fun check wiring => ?_, fun r k law check wiring profile => ?_⟩
  · exact badLoad_eq hp hl (imageCause_check check) nofun
  · exact badLoad_eq hp hl (imageCause_wiring check wiring) nofun
  · have was := (loading_off law (by rw [hp]; nofun)).1
    let u : State := { s with store := img }
    exact ⟨u.loadedWith img disabledProfile r k, refusedLoad_eq rfl hp hl check wiring profile, rfl, rfl, rfl, rfl, rfl,
      rfl, rfl, ⟨rfl, rfl⟩, loadedWith_disabled_lanes (s := u) was img r k,
      loadedWith_disabled_legState (s := u) was img r k, rfl⟩

end Sys2Proof.Machine
end

section
/-! SUPPORT. The queue of commands: what a step takes from it (log 1). -/

namespace Sys2Proof.Machine

theorem step_of_pending_nil {s : State} (h : s.pending = []) : step s = .next s := by
  unfold step
  rw [h]

theorem step_of_pending_cons {s : State} {c : Instr} {rest : List Instr} (h : s.pending = c :: rest) :
    step s = exec c { s with pending := rest } := by
  unfold step
  rw [h]

/-- Settles O1, by the two shapes of the queue; giving a state its own queue again changes nothing. -/
theorem stepTakesTheFrontCommand : Obligations.StepTakesTheFrontCommand := fun _ _ =>
  ⟨step_of_pending_cons rfl, step_of_pending_nil rfl⟩

end Sys2Proof.Machine
end
